-- ==== Sys2Proof/Word.lean ====
section
/-! DEFINITION. The widths of LCDIF's values (00_scope.md R13, R14): bytes and nibbles are bit vectors, row, col,
lengths and durations are natural numbers with no wrap, and what is opaque to the block is a token. -/

namespace Sys2Proof

/-- A byte, bit 7 most significant (R13). -/
abbrev Byte := BitVec 8

/-- A nibble, 0 to 15 (R13). -/
abbrev Nibble := BitVec 4

/-- A duration in nanoseconds (entry 3 of the log: the unit is the model's). -/
abbrev Duration := Nat

/-- A transport handle, opaque to the block (R25): a token that is only passed back. -/
abbrev Handle := Nat

/-- The transport's own error detail, opaque to the block and passed on unchanged (R191). -/
abbrev Detail := Nat

/-- The bus identifier, opaque (R9). -/
abbrev BusId := Nat

/-- The device address on the bus, opaque (R9). -/
abbrev BusAddr := Nat

end Sys2Proof
end

