-- ==== Sys2Proof/Config.lean ====
section
/-! DEFINITION. The configuration of an LCDIF instance (00_scope.md R9, 10_state.md R22): fixed at construction, and
read-only for every operation. Every statement quantifies over it. -/

namespace Sys2Proof

/-- What only a clocked implementation has (R9, R12): the clock frequency, which no rule depends on, and the widths of
the operands row, col and text length on the CMD channel. -/
structure Binding where
  /-- F_CLK in hertz. -/
  fClk : Nat
  rowW : Nat
  colW : Nat
  lenW : Nat
deriving DecidableEq, Repr

/-- The parameters of R9, one field each. -/
structure Config where
  rows        : Nat
  cols        : Nat
  busId       : BusId
  busAddr     : BusAddr
  tDelay      : Duration
  tSettleInit : Duration
  blInit      : Bool
  /-- The clocked binding; `none` is the transaction level of R12, where operands are natural numbers (R9). -/
  binding     : Option Binding
deriving DecidableEq, Repr

/-- Well-formed geometry (R22): ROWS 1 to 4 and COLS at least 1. -/
abbrev Config.geometryOk (c : Config) : Prop := 1 ≤ c.rows ∧ c.rows ≤ 4 ∧ 1 ≤ c.cols

/-- The legal strobe delays (R9, R251): from 1 microsecond up. No rule's bytes depend on it. -/
abbrev Config.delayOk (c : Config) : Prop := 1000 ≤ c.tDelay

/-- What the down-counter of a clocked implementation is loaded with for `Wait(d)`: ceil(d * F_CLK) (R12, R215). -/
def Binding.waitTicks (b : Binding) (d : Duration) : Nat := (d * b.fClk + 999999999) / 1000000000

/-- The largest count the delay timer is ever loaded with, which its width has to hold (R215). -/
def Binding.timerMax (b : Binding) (c : Config) : Nat := b.waitTicks (max c.tDelay c.tSettleInit)

/-- The instance the reset state is made with. ROWS and COLS, BUS_ID, BUS_ADDR, BL_INIT and the binding are model
arguments in the spec and DESIGN CHOICE here (entries 1, 2, 4, 5; unsafe for a claim that rests on them); T_DELAY and
T_SETTLE_INIT have the spec's defaults (R9, D3, D4). -/
def Config.standard : Config where
  rows        := 4
  cols        := 20
  busId       := 0
  busAddr     := 0
  tDelay      := 5000
  tSettleInit := 5000
  blInit      := false
  binding     := none

/-- FREE VALUE (entry 6, safe). What H holds after the k-th value left open: after CLOSE "its value is again
unspecified" (R25). It has no body, so nothing can be proved of it. -/
opaque Config.freeHandle : Nat → Handle

end Sys2Proof
end

