-- ==== Sys2Proof/Syntax.lean ====
section
/-! DEFINITION. The instructions: one constructor for each row of spec/opcode_table.json, in the table's order. -/

namespace Sys2Proof

/-- The mode operand, the value of the register-select bit (30_encoding.md R84). -/
inductive Mode where
  | command
  | data
deriving DecidableEq, Repr

/-- The 22 rows of the opcode table: 4 frame kinds (R81), 7 controller command bytes (R88), 11 operations (R92). -/
inductive Instr where
  -- frame8: a data nibble and the backlight bit; E and RS are the kind's
  | frameCmdLo (d : Nibble) (b : Bool)
  | frameCmdHi (d : Nibble) (b : Bool)
  | frameDataLo (d : Nibble) (b : Bool)
  | frameDataHi (d : Nibble) (b : Bool)
  -- ctrl8: the command bytes the block sends
  | ctrlResetA
  | ctrlResetB
  | ctrlEntryMode
  | ctrlDisplayOn
  | ctrlFunctionSet
  | ctrlClear
  | ctrlSetDdram (a : BitVec 7)
  -- cmd_op4: the operations of the CMD channel
  | init
  | clear
  | print (row col : Nat) (text : List Byte)
  | setbl (on : Bool)
  | close
  | frame (value : Byte) (mode : Mode) (backlightOn : Bool)
  | strobe (frame : Byte)
  | write (value : Byte) (mode : Mode)
  | initseq
  | movecursor (row col : Nat)
  | openBus
deriving DecidableEq, Repr

end Sys2Proof
end

