-- ==== Sys2Proof/WellFormed.lean ====
section
/-! DEFINITION. Well-formed instructions. Bytes, modes and bits have no illegal value (30_encoding.md R95), and a bad row
or column is answered with an error, not refused. What can be ill-formed is an operand that does not fit the widths of a
clocked binding: "a binding must refuse operands that do not fit" (92_eei_decisions.md D9). -/

namespace Sys2Proof

/-- `n` fits in `w` bits. -/
def fitsWidth (w n : Nat) : Bool := decide (n < 2 ^ w)

/-- The operands of `i` fit the widths of the binding `b` (R9, D9). -/
def Instr.fits (b : Binding) : Instr → Bool
  | .frameCmdLo _ _ => true
  | .frameCmdHi _ _ => true
  | .frameDataLo _ _ => true
  | .frameDataHi _ _ => true
  | .ctrlResetA => true
  | .ctrlResetB => true
  | .ctrlEntryMode => true
  | .ctrlDisplayOn => true
  | .ctrlFunctionSet => true
  | .ctrlClear => true
  | .ctrlSetDdram _ => true
  | .init => true
  | .clear => true
  | .print row col text => fitsWidth b.rowW row && fitsWidth b.colW col && fitsWidth b.lenW text.length
  | .setbl _ => true
  | .close => true
  | .frame _ _ _ => true
  | .strobe _ => true
  | .write _ _ => true
  | .initseq => true
  | .movecursor row col => fitsWidth b.rowW row && fitsWidth b.colW col
  | .openBus => true

/-- Well-formed under a configuration. With no binding every operand is a natural number and fits (R9). -/
def Instr.wf (c : Config) (i : Instr) : Bool :=
  match c.binding with
  | none => true
  | some b => i.fits b

end Sys2Proof
end

