-- ==== Sys2Proof/Decode.lean ====
section
/-! DEFINITION. The encodings (30_encoding.md) and the decoder, with the encoder after it. The opcode table has three
formats that share the same small numbers: a frame on the bus (frame8), a command byte handed to WRITE (ctrl8) and a
request on the CMD channel (cmd_op4). A word of the machine therefore carries its format (entry 8 of the log). -/

namespace Sys2Proof

/-- The operand fields of a CMD request (R12, R93). A request carries only the fields its operation uses, and the others
are ignored. `value` carries the operand value of WRITE and FRAME and the frame of STROBE; `on` carries the operand on of
SETBL and backlightOn of FRAME; the text is delivered whole, so its length is the list's. -/
structure Fields where
  row   : Nat := 0
  col   : Nat := 0
  value : Byte := 0
  mode  : BitVec 1 := 0
  on    : BitVec 1 := 0
  text  : List Byte := []
deriving DecidableEq, Repr

/-- One word of the machine, in one of the table's three formats. -/
inductive Request where
  | frame8 (b : Byte)
  | ctrl8 (b : Byte)
  | cmdOp4 (op : BitVec 4) (f : Fields)
deriving DecidableEq, Repr

/-- Why the decoder rejects a word. -/
inductive DecodeError where
  /-- An operation code that R95 leaves unassigned: 0, 6, 7, 14, 15. -/
  | unassignedOp (op : BitVec 4)
  /-- A frame with bit 1 (RW) set: "something this block did not frame" (R94). -/
  | notFramed (b : Byte)
  /-- A command byte that is none of R88: "The block sends no other command byte of its own accord". -/
  | notACommand (b : Byte)
deriving DecidableEq, Repr

/-- The layout of a frame (R80): the data nibble in bits 7 to 4, backlight in bit 3, enable in bit 2, RW always 0 in
bit 1, register select in bit 0. -/
def frameByte (d : Nibble) (bl e rs : Bool) : Byte :=
  d ++ BitVec.ofBool bl ++ BitVec.ofBool e ++ 0#1 ++ BitVec.ofBool rs

/-- The data nibble of a frame, bits 7 to 4 (R80). -/
def frameNibble (b : Byte) : Nibble := b.extractLsb' 4 4

/-- The backlight bit of a frame, bit 3 (R80). -/
def frameBl (b : Byte) : Bool := b.getLsbD 3

/-- The enable bit of a frame, bit 2 (R80). -/
def frameE (b : Byte) : Bool := b.getLsbD 2

/-- The RW bit of a frame, bit 1 (R80, R94). -/
def frameRw (b : Byte) : Bool := b.getLsbD 1

/-- The register-select bit of a frame, bit 0 (R80). -/
def frameRs (b : Byte) : Bool := b.getLsbD 0

/-- The encoding of the mode operand (R84): Command 0, Data 1. -/
def Mode.toBit : Mode → BitVec 1
  | .command => 0#1
  | .data => 1#1

/-- The mode a bit stands for (R84). -/
def Mode.ofBit (b : BitVec 1) : Mode := if b = 0#1 then .command else .data

/-- A one-bit field as a truth value. -/
def bitSet (b : BitVec 1) : Bool := b.getLsbD 0

/-- A frame kind by its E and RS bits; a byte with RW set is not framed by this block (R81, R94). -/
def decodeFrame (b : Byte) : Except DecodeError Instr :=
  if frameRw b then .error (.notFramed b)
  else .ok (match frameRs b, frameE b with
    | false, false => .frameCmdLo (frameNibble b) (frameBl b)
    | false, true => .frameCmdHi (frameNibble b) (frameBl b)
    | true, false => .frameDataLo (frameNibble b) (frameBl b)
    | true, true => .frameDataHi (frameNibble b) (frameBl b))

/-- A controller command byte of R88. -/
def decodeCtrl (b : Byte) : Except DecodeError Instr :=
  if b = 0x33#8 then .ok .ctrlResetA
  else if b = 0x32#8 then .ok .ctrlResetB
  else if b = 0x06#8 then .ok .ctrlEntryMode
  else if b = 0x0C#8 then .ok .ctrlDisplayOn
  else if b = 0x28#8 then .ok .ctrlFunctionSet
  else if b = 0x01#8 then .ok .ctrlClear
  else if b.getLsbD 7 then .ok (.ctrlSetDdram (b.extractLsb' 0 7))
  else .error (.notACommand b)

/-- A CMD request by its operation code (R92, R93); the other codes are unassigned (R95). -/
def decodeCmd (op : BitVec 4) (f : Fields) : Except DecodeError Instr :=
  match op.toNat with
  | 1 => .ok .init
  | 2 => .ok .clear
  | 3 => .ok (.print f.row f.col f.text)
  | 4 => .ok (.setbl (bitSet f.on))
  | 5 => .ok .close
  | 8 => .ok (.frame f.value (Mode.ofBit f.mode) (bitSet f.on))
  | 9 => .ok (.strobe f.value)
  | 10 => .ok (.write f.value (Mode.ofBit f.mode))
  | 11 => .ok .initseq
  | 12 => .ok (.movecursor f.row f.col)
  | 13 => .ok .openBus
  | _ => .error (.unassignedOp op)

/-- The decoder, total on every word. -/
def decode : Request → Except DecodeError Instr
  | .frame8 b => decodeFrame b
  | .ctrl8 b => decodeCtrl b
  | .cmdOp4 op f => decodeCmd op f

/-- The encoder, from the same tables (R80, R81, R88, R92, R93): the fields an operation does not use are 0. -/
def encode : Instr → Request
  | .frameCmdLo d b => .frame8 (frameByte d b false false)
  | .frameCmdHi d b => .frame8 (frameByte d b true false)
  | .frameDataLo d b => .frame8 (frameByte d b false true)
  | .frameDataHi d b => .frame8 (frameByte d b true true)
  | .ctrlResetA => .ctrl8 0x33#8
  | .ctrlResetB => .ctrl8 0x32#8
  | .ctrlEntryMode => .ctrl8 0x06#8
  | .ctrlDisplayOn => .ctrl8 0x0C#8
  | .ctrlFunctionSet => .ctrl8 0x28#8
  | .ctrlClear => .ctrl8 0x01#8
  | .ctrlSetDdram a => .ctrl8 (1#1 ++ a)
  | .init => .cmdOp4 1#4 { }
  | .clear => .cmdOp4 2#4 { }
  | .print row col text => .cmdOp4 3#4 { row := row, col := col, text := text }
  | .setbl on => .cmdOp4 4#4 { on := BitVec.ofBool on }
  | .close => .cmdOp4 5#4 { }
  | .frame value mode on => .cmdOp4 8#4 { value := value, mode := mode.toBit, on := BitVec.ofBool on }
  | .strobe frame => .cmdOp4 9#4 { value := frame }
  | .write value mode => .cmdOp4 10#4 { value := value, mode := mode.toBit }
  | .initseq => .cmdOp4 11#4 { }
  | .movecursor row col => .cmdOp4 12#4 { row := row, col := col }
  | .openBus => .cmdOp4 13#4 { }

/-- The fields operation code `op` uses, the others 0 (R92, R93). -/
def usedFields (op : BitVec 4) (f : Fields) : Fields :=
  match op.toNat with
  | 3 => { row := f.row, col := f.col, text := f.text }
  | 4 => { on := f.on }
  | 8 => { value := f.value, mode := f.mode, on := f.on }
  | 9 => { value := f.value }
  | 10 => { value := f.value, mode := f.mode }
  | 12 => { row := f.row, col := f.col }
  | _ => { }

/-- The same request with the fields its operation ignores at 0 (R93). -/
def Request.used : Request → Request
  | .frame8 b => .frame8 b
  | .ctrl8 b => .ctrl8 b
  | .cmdOp4 op f => .cmdOp4 op (usedFields op f)

/-- The word a bare number of the table stands for. A 4-bit number is an operation code. An 8-bit number is tried in the
table's formats from the most to the least specific use of its bits: a command byte of R88, else a frame, else an
operation code in the low four bits. The three formats overlap (0x01 is CTRL.CLEAR, a FRAME.DATA.LO and the code of INIT):
the order is the model's (entry 8, DESIGN CHOICE), and the machine itself never meets a bare number. Operand fields are 0. -/
def requestOfTableWord (nbits w : Nat) : Request :=
  if nbits ≤ 4 then .cmdOp4 (BitVec.ofNat 4 w) { }
  else if (decodeCtrl (BitVec.ofNat 8 w)).toBool then .ctrl8 (BitVec.ofNat 8 w)
  else if (decodeFrame (BitVec.ofNat 8 w)).toBool then .frame8 (BitVec.ofNat 8 w)
  else if w < 16 then .cmdOp4 (BitVec.ofNat 4 w) { }
  else .frame8 (BitVec.ofNat 8 w)

/-- The instruction the decoder reads from the table's number `w` of `nbits` bits. -/
def decodeTableWord (nbits w : Nat) : Option Instr := (decode (requestOfTableWord nbits w)).toOption

end Sys2Proof
end

