-- ==== Sys2Proof/Machine/State.lean ====
section
/-! DEFINITION. The state of an LCDIF instance (10_state.md R21) and its channels (00_scope.md R10, R11) as plain data. -/

namespace Sys2Proof.Machine

/-- The error kinds (60_exceptions.md R190), with what R191 records with each. -/
inductive Err where
  | rowOutOfRange
  | colOutOfRange
  | transportError (d : Detail)
deriving DecidableEq, Repr

/-- One RSP transaction (00_scope.md R11, R12): a Result, the frame pair of FRAME, or no status (SETBL, CLOSE). -/
inductive Response where
  | ok
  | err (e : Err)
  | frames (highFrame lowFrame : Byte)
  | noStatus
deriving DecidableEq, Repr

/-- The transport's answer to an open (R10). -/
inductive OpenAnswer where
  | handle (h : Handle)
  | error (d : Detail)
deriving DecidableEq, Repr

/-- The transport's answer to a write of one byte (R10). -/
inductive WriteAnswer where
  | ok
  | error (d : Detail)
deriving DecidableEq, Repr

/-- One BUS transaction with its answer (R10); close has none. -/
inductive BusTransaction where
  | opened (id : BusId) (addr : BusAddr) (a : OpenAnswer)
  | wrote (h : Handle) (b : Byte) (a : WriteAnswer)
  | closed (h : Handle)
deriving DecidableEq, Repr

/-- An event of the trace (20_memory.md R51). -/
inductive Event where
  | opened
  | openFail
  | tx (b : Byte)
  | txFail (b : Byte)
  | delay (d : Duration)
  | closed
deriving DecidableEq, Repr

/-- A micro-operation (10_state.md R27). The write `S.H <- h` of OPEN is part of the completion of `busOpen`, whose
answer brings h (entry 15). `dropHandle` is CLOSE's "H becomes unspecified" (R166). -/
inductive MicroOp where
  | busOpen (id : BusId) (addr : BusAddr)
  | busWrite (b : Byte)
  | wait (d : Duration)
  | busClose
  | setBL (v : Bool)
  | setOPEN (v : Bool)
  | setINITED (v : Bool)
  | dropHandle
deriving DecidableEq, Repr

/-- The sequencer position (R27): idle, or the micro-operations of the operation in flight that have not yet run with the
result the operation ends with when the last of them has. Between two steps it is busy only while the transport has not
answered the request at the head (entry 16). -/
inductive Seq where
  | idle
  | busy (todo : List MicroOp) (result : Response)
deriving DecidableEq, Repr

/-- No step of this machine faults: R53 says of the one way it can stop that it is "a stuck state, not a final one and not
a fault", and the errors of R190 are results. -/
inductive Fault
deriving DecidableEq, Repr

/-- The requests to which the spec gives no meaning. -/
inductive Refusal where
  /-- Raised by no arm of exec that has its meaning; safe. -/
  | notModelled (mnemonic : String)
  /-- Raised by every operation that transmits while OPEN = 0 (R167, D11: "refused"); safe. -/
  | notOpen
  /-- Raised by OPEN while OPEN = 1 (R160 Precondition, R212 "not used"); safe. -/
  | alreadyOpen
  /-- Raised by exec, never by step, when an operation is in flight (R60, 93 U1: "a second concurrent request has no
  move"); safe. -/
  | busy
  /-- Raised by step on a word the decoder rejects (R94, R95, R88); safe. -/
  | undecodable (e : DecodeError)
  /-- Raised by step on an operand that does not fit the clocked binding (D9); safe. -/
  | operandTooWide
  /-- Raised by construction for a geometry outside its type (R22, D15); safe. -/
  | badGeometry
deriving DecidableEq, Repr

/-- The whole state. -/
structure State where
  /-- The configuration, immutable (R22). -/
  cfg       : Config
  /-- BL (R23). -/
  bl        : Bool
  /-- OPEN (R24). -/
  isOpen    : Bool
  /-- H (R25), meaningful only while OPEN = 1. -/
  handle    : Handle
  /-- SEQ (R27). -/
  seq       : Seq
  /-- The delay timer (R215), 0 when no wait runs. -/
  timer     : Duration
  /-- INITED, ghost (R32). -/
  inited    : Bool
  /-- TRACE, ghost (R33, R51), oldest event first. -/
  trace     : List Event
  /-- CMD: requests offered and not yet taken, oldest first (R11, R60). -/
  cmd       : List Request
  /-- RSP transactions so far, oldest first (R11, D24): an observation, nothing reads it. -/
  rsp       : List Response
  /-- BUS transactions so far, oldest first (R10): an observation, nothing reads it. -/
  bus       : List BusTransaction
  /-- The transport's answers to opens that the block has not used yet, next first (R52). -/
  busOpens  : List OpenAnswer
  /-- The transport's answers to writes that the block has not used yet, next first (R52). -/
  busWrites : List WriteAnswer
  /-- The MODEL's own field: how many free values have been drawn (entry 6). -/
  draws     : Nat
deriving DecidableEq, Repr

/-- The state reset leaves for a configuration (70_reset_and_hazards.md R230, R231): BL at BL_INIT, OPEN 0, SEQ idle, the
ghosts 0 and empty, no bus activity. H is DESIGN CHOICE 0 (entry 6), the timer DESIGN CHOICE 0 (entry 7); the channels
hold nothing yet. -/
def State.resetWith (c : Config) : State where
  cfg       := c
  bl        := c.blInit
  isOpen    := false
  handle    := 0
  seq       := .idle
  timer     := 0
  inited    := false
  trace     := []
  cmd       := []
  rsp       := []
  bus       := []
  busOpens  := []
  busWrites := []
  draws     := 0

/-- The machine right after reset, constructed with `Config.standard`. -/
def State.reset : State := State.resetWith Config.standard

end Sys2Proof.Machine
end

