-- ==== Sys2Proof/Machine/Operands.lean ====
section
/-! DEFINITION. Operand assembly and the constants of the rules (00_scope.md R15; 30_encoding.md R83 to R89). -/

namespace Sys2Proof.Machine

/-- EN_BIT (R15). -/
def enBit : Byte := 0x04#8

/-- BL_BIT (R15). -/
def blBit : Byte := 0x08#8

/-- DATA_MASK (R15). -/
def dataMask : Byte := 0xF0#8

/-- CMD_CLEAR (R15). -/
def cmdClear : Byte := 0x01#8

/-- The mode bit of a frame (R83): 0 for Command, 1 for Data. -/
def modeBit : Mode → Byte
  | .command => 0x00#8
  | .data => 0x01#8

/-- The backlight bit of a frame (R83): 0x08 if on, else 0. -/
def backlightBit (on : Bool) : Byte := if on then blBit else 0x00#8

/-- The high frame (R110): the value's bits 7 to 4 in place (R85). -/
def highFrame (value : Byte) (mode : Mode) (on : Bool) : Byte :=
  modeBit mode ||| (value &&& dataMask) ||| backlightBit on

/-- The low frame (R110): the value's bits 3 to 0 moved up four places (R86). -/
def lowFrame (value : Byte) (mode : Mode) (on : Bool) : Byte :=
  modeBit mode ||| ((value <<< 4) &&& dataMask) ||| backlightBit on

/-- Enable set (R87). -/
def enableSet (frame : Byte) : Byte := frame ||| enBit

/-- Enable clear (R87): and with the 8-bit complement 0xFB. -/
def enableClear (frame : Byte) : Byte := frame &&& ~~~enBit

/-- T, the ControllerAddressTable (10_state.md R30): whole command bytes for column 0; no other row has an entry. -/
def tableT : Nat → Option Byte
  | 1 => some 0x80#8
  | 2 => some 0xC0#8
  | 3 => some 0x94#8
  | 4 => some 0xD4#8
  | _ => none

/-- INIT_SEQ (10_state.md R31). -/
def initSeq : List Byte := [0x33#8, 0x32#8, 0x06#8, 0x0C#8, 0x28#8, 0x01#8]

/-- The CursorAddresser's checks in their order and the command byte (44_cursor.md R150, R151, R152, R153): the sum is
cut to 8 bits (D8, entry 13). -/
def cursorByte (c : Config) (row col : Nat) : Except Err Byte :=
  if row < 1 ∨ row > c.rows then .error .rowOutOfRange
  else if col > c.cols then .error .colOutOfRange
  else
    match tableT row with
    | none => .error .rowOutOfRange
    | some base => .ok (BitVec.ofNat 8 (base.toNat + col))

end Sys2Proof.Machine
end

