-- ==== Sys2Proof/Machine/Ops.lean ====
section
/-! DEFINITION. The named operations over the state: the writes of one state element, the BUS primitives (00_scope.md
R14), running a step list (10_state.md R27), ending an operation with a result or an error (60_exceptions.md R200), and
the host's and the transport's inputs. -/

namespace Sys2Proof.Machine

/-- `S.BL <- v`. -/
def State.setBl (s : State) (v : Bool) : State := { s with bl := v }

/-- `S.OPEN <- v`. -/
def State.setOpen (s : State) (v : Bool) : State := { s with isOpen := v }

/-- `S.H <- h`. -/
def State.setHandle (s : State) (h : Handle) : State := { s with handle := h }

/-- `S.INITED <- v`, ghost. -/
def State.setInited (s : State) (v : Bool) : State := { s with inited := v }

/-- Write of SEQ. -/
def State.setSeq (s : State) (q : Seq) : State := { s with seq := q }

/-- Write of the delay timer. -/
def State.setTimer (s : State) (d : Duration) : State := { s with timer := d }

/-- Append an event to the trace (R51). -/
def State.record (s : State) (e : Event) : State := { s with trace := s.trace ++ [e] }

/-- Issue an RSP transaction. -/
def State.respond (s : State) (r : Response) : State := { s with rsp := s.rsp ++ [r] }

/-- Issue a BUS transaction. -/
def State.transact (s : State) (t : BusTransaction) : State := { s with bus := s.bus ++ [t] }

/-- The transport's answers to opens that are left. -/
def State.setBusOpens (s : State) (l : List OpenAnswer) : State := { s with busOpens := l }

/-- The transport's answers to writes that are left. -/
def State.setBusWrites (s : State) (l : List WriteAnswer) : State := { s with busWrites := l }

/-- The requests that are left on the CMD channel. -/
def State.setCmd (s : State) (l : List Request) : State := { s with cmd := l }

/-- H becomes unspecified (R25, R166): the next free value. -/
def State.dropHandle (s : State) : State :=
  { s with handle := Config.freeHandle s.draws, draws := s.draws + 1 }

/-- What one micro-operation comes to. -/
inductive MicroResult where
  | done (s : State)
  | raised (e : Err) (s : State)
  | unanswered

/-- `BusOpen(id, addr)` (R14, R160): on success H holds the handle and the trace gets Opened; on an error OpenFail. -/
def busOpen (id : BusId) (addr : BusAddr) (s : State) : MicroResult :=
  match s.busOpens with
  | [] => .unanswered
  | .handle h :: rest =>
    .done ((((s.setBusOpens rest).transact (.opened id addr (.handle h))).setHandle h).record .opened)
  | .error d :: rest =>
    .raised (.transportError d) (((s.setBusOpens rest).transact (.opened id addr (.error d))).record .openFail)

/-- `BusWrite(b)` (R14, R50): the handle H goes with the byte; `Ok` gives Tx(b), an error TxFail(b). -/
def busWrite (b : Byte) (s : State) : MicroResult :=
  match s.busWrites with
  | [] => .unanswered
  | .ok :: rest => .done (((s.setBusWrites rest).transact (.wrote s.handle b .ok)).record (.tx b))
  | .error d :: rest =>
    .raised (.transportError d) (((s.setBusWrites rest).transact (.wrote s.handle b (.error d))).record (.txFail b))

/-- `BusClose(S.H)` (R14, R166): no answer, cannot fail. -/
def busClose (s : State) : State := (s.transact (.closed s.handle)).record .closed

/-- The timer is loaded with d (R215). -/
def loadTimer (d : Duration) (s : State) : State := s.setTimer d

/-- The timer has run down to zero: the wait of the duration it was loaded with has ended (R54). -/
def expireTimer (s : State) : State := (s.record (.delay s.timer)).setTimer 0

/-- `Wait(d)` (R14, R54). It cannot fail and always ends. -/
def waitFor (d : Duration) (s : State) : State := expireTimer (loadTimer d s)

/-- One micro-operation (R27). -/
def micro (m : MicroOp) (s : State) : MicroResult :=
  match m with
  | .busOpen id addr => busOpen id addr s
  | .busWrite b => busWrite b s
  | .wait d => .done (waitFor d s)
  | .busClose => .done (busClose s)
  | .setBL v => .done (s.setBl v)
  | .setOPEN v => .done (s.setOpen v)
  | .setINITED v => .done (s.setInited v)
  | .dropHandle => .done s.dropHandle

/-- The end of an operation with result r: SEQ becomes idle and the result goes out on RSP (R27, R11). There is no
return from an error besides the next request (R203). -/
def finish (r : Response) (s : State) : State := (s.setSeq .idle).respond r

/-- `raise e`, taking an exception (R200, R201): the operation in flight and all that enclose it end, the error goes out
on RSP, SEQ becomes idle, and nothing else is written. -/
def raise (e : Err) (s : State) : State := finish (.err e) s

/-- Run a step list to its end, to an error, or to a request the transport has not answered (R27, R53, R200): each
micro-operation that completes is removed from the head, an error empties the list, and an unanswered request stays at
the head of SEQ. -/
def runSeq : List MicroOp → Response → State → State
  | [], r, s => finish r s
  | m :: ms, r, s =>
    match micro m s with
    | .done s' => runSeq ms r s'
    | .raised e s' => raise e s'
    | .unanswered => s.setSeq (.busy (m :: ms) r)

/-- A step's outcome over this machine's types. -/
abbrev Result := Host.Outcome State Fault Refusal

/-- An operation begins only when SEQ is idle (R60, D20). -/
def whenIdle (s : State) (k : Result) : Result :=
  match s.seq with
  | .idle => k
  | .busy _ _ => .refused .busy

/-- The precondition `S.OPEN = 1` of every operation that transmits, whatever its operands (R167). -/
def whenOpen (s : State) (k : Result) : Result := if s.isOpen then k else .refused .notOpen

/-- The precondition `S.OPEN = 0` of OPEN (R160, D27). -/
def whenClosed (s : State) (k : Result) : Result := if s.isOpen then .refused .alreadyOpen else k

/-- An operation without precondition: run its step list. -/
def perform (todo : List MicroOp) (r : Response) (s : State) : Result :=
  whenIdle s (.next (runSeq todo r s))

/-- An operation that transmits: run its step list while the handle is held. -/
def transmit (todo : List MicroOp) (r : Response) (s : State) : Result :=
  whenIdle s (whenOpen s (.next (runSeq todo r s)))

/-- An operation that transmits, with checks before its first step: `.error e` raises e, `.ok todo` runs todo. -/
def checkedTransmit (checks : Except Err (List MicroOp)) (r : Response) (s : State) : Result :=
  whenIdle s (whenOpen s (.next (match checks with
    | .error e => raise e s
    | .ok todo => runSeq todo r s)))

/-- What the block does next: go on with the operation in flight, take the oldest request, or nothing (R60, R230). -/
inductive Fetch where
  | resume (todo : List MicroOp) (r : Response)
  | request (q : Request) (s : State)
  | nothing

/-- A request is taken only when SEQ is idle; the others wait their turn (R60, D20). -/
def fetch (s : State) : Fetch :=
  match s.seq with
  | .busy todo r => .resume todo r
  | .idle =>
    match s.cmd with
    | [] => .nothing
    | q :: qs => .request q (s.setCmd qs)

/-- The request that stands on the BUS channel without an answer (R10, R12, R53). -/
inductive Outstanding where
  | none
  | opening (id : BusId) (addr : BusAddr)
  | writing (h : Handle) (b : Byte)
deriving DecidableEq, Repr

/-- The unanswered request of a block that waits for the transport (R53). -/
def State.outstanding (s : State) : Outstanding :=
  match s.seq with
  | .busy (.busOpen id addr :: _) _ => .opening id addr
  | .busy (.busWrite b :: _) _ => .writing s.handle b
  | _ => .none

/-- `cmd_ready` of the signal binding: high only when SEQ is idle (00_scope.md R12). -/
def State.cmdReady (s : State) : Bool := decide (s.seq = .idle)

/-- `bus_req` while a request stands unanswered (R12): 0 none, 1 open, 2 write. -/
def Outstanding.busReq : Outstanding → BitVec 2
  | .none => 0#2
  | .opening _ _ => 1#2
  | .writing _ _ => 2#2

/-- `bus_req` of a BUS transaction (R12): 1 open, 2 write, 3 close. -/
def BusTransaction.busReq : BusTransaction → BitVec 2
  | .opened _ _ _ => 1#2
  | .wrote _ _ _ => 2#2
  | .closed _ => 3#2

/-- The host offers one more request on CMD (R8, R11). -/
def State.offer (s : State) (q : Request) : State := s.setCmd (s.cmd ++ [q])

/-- The transport answers one more open (R8, R52). -/
def State.answerOpen (s : State) (a : OpenAnswer) : State := s.setBusOpens (s.busOpens ++ [a])

/-- The transport answers one more write (R8, R52). -/
def State.answerWrite (s : State) (a : WriteAnswer) : State := s.setBusWrites (s.busWrites ++ [a])

/-- Reset is construction (R230); a geometry outside its type is refused (R22, D15). -/
def construct (c : Config) : Result :=
  if c.geometryOk then .next (State.resetWith c) else .refused .badGeometry

end Sys2Proof.Machine
end

