-- ==== Sys2Proof/Machine/Steps.lean ====
section
/-! DEFINITION. The step list of each operation, as SEQ holds it when the operation starts (10_state.md R27, R28): the
frames already stand in the `busWrite` micro-operations. The lists are built one from the other as 30_encoding.md R98
composes the operations. -/

namespace Sys2Proof.Machine

/-- STROBE frame (41_strobe.md R120): wait, enable set, wait, enable clear, wait. -/
def strobeSteps (d : Duration) (frame : Byte) : List MicroOp :=
  [.wait d, .busWrite (enableSet frame), .wait d, .busWrite (enableClear frame), .wait d]

/-- One nibble: the setup transmit, then the strobe (42_bytewriter.md R130). -/
def nibbleSteps (d : Duration) (frame : Byte) : List MicroOp := .busWrite frame :: strobeSteps d frame

/-- WRITE value, mode with the backlight bl (R130, R133: both frames carry the one bl), high nibble first (R58). -/
def writeSteps (d : Duration) (bl : Bool) (value : Byte) (mode : Mode) : List MicroOp :=
  nibbleSteps d (highFrame value mode bl) ++ nibbleSteps d (lowFrame value mode bl)

/-- INITSEQ (43_initializer.md R140). Its frames carry backlight 1, the BL its second line has written (R141). -/
def initseqSteps (c : Config) : List MicroOp :=
  [.setINITED false, .setBL true]
    ++ initSeq.flatMap (fun b => writeSteps c.tDelay true b .command)
    ++ [.wait c.tSettleInit, .setINITED true]

/-- OPEN (45_facade.md R160). -/
def openSteps (c : Config) : List MicroOp := [.busOpen c.busId c.busAddr, .setOPEN true]

/-- INIT (R161): OPEN if not open, then INITSEQ. -/
def initSteps (c : Config) (isOpen : Bool) : List MicroOp :=
  (if isOpen then [] else openSteps c) ++ initseqSteps c

/-- CLOSE (R166): nothing if not open. -/
def closeSteps (isOpen : Bool) : List MicroOp :=
  if isOpen then [.busClose, .setOPEN false, .dropHandle, .setINITED false] else []

/-- MOVECURSOR row, col (44_cursor.md R150): the checks, then WRITE of the cursor byte in Command mode. -/
def cursorSteps (c : Config) (bl : Bool) (row col : Nat) : Except Err (List MicroOp) :=
  match cursorByte c row col with
  | .error e => .error e
  | .ok v => .ok (writeSteps c.tDelay bl v .command)

/-- The characters of a text, first byte first, each one WRITE in Data mode (R163, R59). -/
def textSteps (d : Duration) (bl : Bool) (text : List Byte) : List MicroOp :=
  text.flatMap (fun ch => writeSteps d bl ch .data)

/-- PRINT row, col, text (R163): the overflow check, the empty text, MOVECURSOR's checks, then the writes. -/
def printSteps (c : Config) (bl : Bool) (row col : Nat) (text : List Byte) : Except Err (List MicroOp) :=
  if text.length + col > c.cols then .error .colOutOfRange
  else if text.length = 0 then .ok []
  else
    match cursorSteps c bl row col with
    | .error e => .error e
    | .ok steps => .ok (steps ++ textSteps c.tDelay bl text)

end Sys2Proof.Machine
end

