-- ==== Sys2Proof/Machine/ByteWriter.lean ====
section
/-! DEFINITION. The ByteWriter: operation WRITE (42_bytewriter.md) and the seven controller command bytes of
30_encoding.md R88, each "passed to WRITE in Command mode" (entry 12 of the log). -/

namespace Sys2Proof.Machine

/-- WRITE value, mode (R130 to R133). -/
def execWrite (value : Byte) (mode : Mode) (s : State) : Result :=
  transmit (writeSteps s.cfg.tDelay s.bl value mode) .ok s

/-- CTRL.RESET_A (R88): the byte 0x33. -/
def execCtrlResetA (s : State) : Result := execWrite 0x33#8 .command s

/-- CTRL.RESET_B (R88): the byte 0x32. -/
def execCtrlResetB (s : State) : Result := execWrite 0x32#8 .command s

/-- CTRL.ENTRY_MODE (R88): the byte 0x06. -/
def execCtrlEntryMode (s : State) : Result := execWrite 0x06#8 .command s

/-- CTRL.DISPLAY_ON (R88): the byte 0x0C. -/
def execCtrlDisplayOn (s : State) : Result := execWrite 0x0C#8 .command s

/-- CTRL.FUNCTION_SET (R88): the byte 0x28. -/
def execCtrlFunctionSet (s : State) : Result := execWrite 0x28#8 .command s

/-- CTRL.CLEAR (R88): the byte 0x01. -/
def execCtrlClear (s : State) : Result := execWrite cmdClear .command s

/-- CTRL.SET_DDRAM (R88): the byte 0x80 with the DDRAM address in bits 6 to 0. -/
def execCtrlSetDdram (a : BitVec 7) (s : State) : Result := execWrite (1#1 ++ a) .command s

end Sys2Proof.Machine
end

