-- ==== Sys2Proof/Machine/Cursor.lean ====
section
/-! DEFINITION. The CursorAddresser, operation MOVECURSOR (44_cursor.md). -/

namespace Sys2Proof.Machine

/-- MOVECURSOR row, col (R150 to R157). -/
def execMovecursor (row col : Nat) (s : State) : Result :=
  checkedTransmit (cursorSteps s.cfg s.bl row col) .ok s

end Sys2Proof.Machine
end

