-- ==== Sys2Proof/Machine/Facade.lean ====
section
/-! DEFINITION. The Display facade: operations OPEN, INIT, CLEAR, PRINT, SETBL, CLOSE (45_facade.md). -/

namespace Sys2Proof.Machine

/-- OPEN (R160): precondition OPEN = 0. -/
def execOpen (s : State) : Result := whenIdle s (whenClosed s (.next (runSeq (openSteps s.cfg) .ok s)))

/-- INIT (R161): valid in every lifecycle state. -/
def execInit (s : State) : Result := perform (initSteps s.cfg s.isOpen) .ok s

/-- CLEAR (R162): WRITE 0x01 in Command mode, no further delay. -/
def execClear (s : State) : Result := transmit (writeSteps s.cfg.tDelay s.bl cmdClear .command) .ok s

/-- PRINT row, col, text (R163, R164). -/
def execPrint (row col : Nat) (text : List Byte) (s : State) : Result :=
  checkedTransmit (printSteps s.cfg s.bl row col text) .ok s

/-- SETBL on (R165): writes BL, no bus activity, no status, valid in every state. -/
def execSetbl (on : Bool) (s : State) : Result := perform [.setBL on] .noStatus s

/-- CLOSE (R166): releases the handle if open; no status, cannot fail. -/
def execClose (s : State) : Result := perform (closeSteps s.isOpen) .noStatus s

end Sys2Proof.Machine
end

