-- ==== Sys2Proof/Machine/Framer.lean ====
section
/-! DEFINITION. The NibbleFramer, operation FRAME (40_framer.md). -/

namespace Sys2Proof.Machine

/-- FRAME value, mode, backlightOn (R110): the frame pair, no state read or written, valid open or closed (R167). -/
def execFrame (value : Byte) (mode : Mode) (backlightOn : Bool) (s : State) : Result :=
  perform [] (.frames (highFrame value mode backlightOn) (lowFrame value mode backlightOn)) s

end Sys2Proof.Machine
end

