-- ==== Sys2Proof/Machine/Initializer.lean ====
section
/-! DEFINITION. The Initializer, operation INITSEQ (43_initializer.md). -/

namespace Sys2Proof.Machine

/-- INITSEQ (R140 to R142). -/
def execInitseq (s : State) : Result := transmit (initseqSteps s.cfg) .ok s

end Sys2Proof.Machine
end

