-- ==== Sys2Proof/Machine/Strobe.lean ====
section
/-! DEFINITION. The EnableStrobe, operation STROBE (41_strobe.md). -/

namespace Sys2Proof.Machine

/-- STROBE frame (R120, R121, R122). -/
def execStrobe (frame : Byte) (s : State) : Result := transmit (strobeSteps s.cfg.tDelay frame) .ok s

end Sys2Proof.Machine
end

