-- ==== Sys2Proof/Machine/Wire.lean ====
section
/-! DEFINITION. The four frame kinds (30_encoding.md R81): each is one bus transmit of that frame (20_memory.md R50,
R73), the transmit steps of 42_bytewriter.md R131 taken singly (entry 11 of the log). -/

namespace Sys2Proof.Machine

/-- FRAME.CMD.LO: setup or enable-low transmit of a Command nibble. -/
def execFrameCmdLo (d : Nibble) (b : Bool) (s : State) : Result :=
  transmit [.busWrite (frameByte d b false false)] .ok s

/-- FRAME.CMD.HI: enable-high transmit of a Command nibble. -/
def execFrameCmdHi (d : Nibble) (b : Bool) (s : State) : Result :=
  transmit [.busWrite (frameByte d b true false)] .ok s

/-- FRAME.DATA.LO: setup or enable-low transmit of a Data nibble. -/
def execFrameDataLo (d : Nibble) (b : Bool) (s : State) : Result :=
  transmit [.busWrite (frameByte d b false true)] .ok s

/-- FRAME.DATA.HI: enable-high transmit of a Data nibble. -/
def execFrameDataHi (d : Nibble) (b : Bool) (s : State) : Result :=
  transmit [.busWrite (frameByte d b true true)] .ok s

end Sys2Proof.Machine
end

