-- ==== Sys2Proof/Machine/Dispatch.lean ====
section
/-! DEFINITION. One arm per constructor of Instr, each a direct call of its meaning. -/

namespace Sys2Proof.Machine

def exec (i : Instr) (s : State) : Host.Outcome State Fault Refusal :=
  match i with
  | .frameCmdLo d b => Sys2Proof.Machine.execFrameCmdLo d b s
  | .frameCmdHi d b => Sys2Proof.Machine.execFrameCmdHi d b s
  | .frameDataLo d b => Sys2Proof.Machine.execFrameDataLo d b s
  | .frameDataHi d b => Sys2Proof.Machine.execFrameDataHi d b s
  | .ctrlResetA => Sys2Proof.Machine.execCtrlResetA s
  | .ctrlResetB => Sys2Proof.Machine.execCtrlResetB s
  | .ctrlEntryMode => Sys2Proof.Machine.execCtrlEntryMode s
  | .ctrlDisplayOn => Sys2Proof.Machine.execCtrlDisplayOn s
  | .ctrlFunctionSet => Sys2Proof.Machine.execCtrlFunctionSet s
  | .ctrlClear => Sys2Proof.Machine.execCtrlClear s
  | .ctrlSetDdram a => Sys2Proof.Machine.execCtrlSetDdram a s
  | .init => Sys2Proof.Machine.execInit s
  | .clear => Sys2Proof.Machine.execClear s
  | .print row col text => Sys2Proof.Machine.execPrint row col text s
  | .setbl on => Sys2Proof.Machine.execSetbl on s
  | .close => Sys2Proof.Machine.execClose s
  | .frame value mode backlightOn => Sys2Proof.Machine.execFrame value mode backlightOn s
  | .strobe frame => Sys2Proof.Machine.execStrobe frame s
  | .write value mode => Sys2Proof.Machine.execWrite value mode s
  | .initseq => Sys2Proof.Machine.execInitseq s
  | .movecursor row col => Sys2Proof.Machine.execMovecursor row col s
  | .openBus => Sys2Proof.Machine.execOpen s

end Sys2Proof.Machine
end

