-- ==== Sys2Proof/Machine/Step.lean ====
section
/-! DEFINITION. One step of the machine: go on with the operation in flight, or take the oldest request of the CMD channel
and run it, or nothing (20_memory.md R60; 70_reset_and_hazards.md R230 "the block does nothing until asked"). -/

namespace Sys2Proof.Machine

/-- A taken request is decoded, checked against the binding, and executed. A block whose transport does not answer stays
as it is, step after step (R53, entry 10). -/
def step (s : State) : Host.Outcome State Fault Refusal :=
  match fetch s with
  | .resume todo r => .next (runSeq todo r s)
  | .nothing => .next s
  | .request q s' =>
    match decode q with
    | .error e => .refused (.undecodable e)
    | .ok i => if i.wf s.cfg then exec i s' else .refused .operandTooWide

/-- The table's number `w` stands first on the CMD channel of an idle block: the host has offered it (entry 17). -/
def State.withFetchWord (s : State) (nbits w : Nat) : State :=
  (s.setSeq .idle).setCmd (requestOfTableWord nbits w :: s.cmd)

end Sys2Proof.Machine
end

