-- ==== Sys2Proof/Machine/Flags.lean ====
section
/-! DEFINITION. The block has no condition codes and no status flags (10_state.md R29). What stands in their place: the
status code of a result (60_exceptions.md R191) and the lifecycle state read off OPEN and INITED (R210). -/

namespace Sys2Proof.Machine

/-- The status code of an error (R191). -/
def Err.statusCode : Err → BitVec 2
  | .rowOutOfRange => 1#2
  | .colOutOfRange => 2#2
  | .transportError _ => 3#2

/-- The detail recorded with an error (R191): the transport's own, and none for the range errors. -/
def Err.detail : Err → Option Detail
  | .rowOutOfRange => none
  | .colOutOfRange => none
  | .transportError d => some d

/-- The status code on the RSP channel (R191); SETBL and CLOSE carry no status and FRAME carries its pair (R11). -/
def Response.statusCode : Response → Option (BitVec 2)
  | .ok => some 0#2
  | .err e => some e.statusCode
  | .frames _ _ => none
  | .noStatus => none

/-- The lifecycle states (R210). -/
inductive Lifecycle where
  | closed
  | openUninitialised
  | ready
deriving DecidableEq, Repr

/-- The lifecycle state of (OPEN, INITED) (R210). -/
def State.lifecycle (s : State) : Lifecycle :=
  match s.isOpen, s.inited with
  | false, _ => .closed
  | true, false => .openUninitialised
  | true, true => .ready

end Sys2Proof.Machine
end

