-- ==== Sys2Proof/Machine/Observe.lean ====
section
/-! DEFINITION. Reading the trace from the controller's side (20_memory.md R68, R69, R70) and the measures of R71, R72
and 70_reset_and_hazards.md R260. These are functions of the trace and "add nothing to the block's behaviour". -/

namespace Sys2Proof.Machine

/-- A transmit as the bus saw it: the byte, and whether it was answered `Ok`. -/
structure Transmit where
  ok   : Bool
  byte : Byte
deriving DecidableEq, Repr

/-- The `Tx` and `TxFail` events of a trace, in order. -/
def transmits : List Event → List Transmit
  | [] => []
  | .tx b :: es => ⟨true, b⟩ :: transmits es
  | .txFail b :: es => ⟨false, b⟩ :: transmits es
  | _ :: es => transmits es

/-- A completed strobe seen at a transmit and the one after it (R68): enable set, then enable clear on the same lines. -/
def strobeAt (a : Transmit) (next : Option Transmit) : Option (Bool × Nibble) :=
  match next with
  | none => none
  | some b =>
    if a.ok && b.ok && frameE a.byte && !frameE b.byte && (b.byte &&& 0xFB#8 == a.byte &&& 0xFB#8) then
      some (frameRs a.byte, frameNibble a.byte)
    else none

/-- The completed strobes of a list of transmits, in order (R68). -/
def strobesIn : List Transmit → List (Bool × Nibble)
  | [] => []
  | a :: ts =>
    match strobeAt a ts.head? with
    | some p => p :: strobesIn ts
    | none => strobesIn ts

/-- `strobes(trace)` (R68). -/
def strobes (es : List Event) : List (Bool × Nibble) := strobesIn (transmits es)

/-- An open strobe (R68): a `Tx` with enable set that is followed by `TxFail`, or by nothing. -/
def openStrobeIn : List Transmit → Bool
  | [] => false
  | a :: ts =>
    (a.ok && frameE a.byte && (match ts.head? with
      | none => true
      | some b => !b.ok)) || openStrobeIn ts

/-- The nibbles paired two by two from the start (R69): `none` for an odd number or a pair of unequal RS. -/
def pairNibbles : List (Bool × Nibble) → Option (List (Bool × Byte))
  | [] => some []
  | [_] => none
  | (rs, hi) :: (rs', lo) :: ps =>
    if rs = rs' then (pairNibbles ps).map (fun l => (rs, hi ++ lo) :: l) else none

/-- `bytes(trace)` (R69): defined only for an even number of completed strobes with equal RS in each pair, no `TxFail` and
no open strobe. -/
def bytes (es : List Event) : Option (List (Bool × Byte)) :=
  if (transmits es).all (·.ok) && !openStrobeIn (transmits es) then pairNibbles (strobes es) else none

/-- The bytes of the `Tx` events, in order. -/
def txBytes : List Event → List Byte
  | [] => []
  | .tx b :: es => b :: txBytes es
  | _ :: es => txBytes es

/-- The byte the expander's eight lines are known to carry (R70): that of the last transmit, where it succeeded. `none`
where the lines are not known (10_state.md R42, 91_not_in_source.md N12): before the first transmit, and after a failed one
(R51, 93_implementation_defined.md U12) until the next one succeeds. -/
def lastTx (es : List Event) : Option Byte :=
  match (transmits es).getLast? with
  | none => none
  | some a => if a.ok then some a.byte else none

/-- The expander's lines by name (30_encoding.md R80, R82). -/
structure Pins where
  dataLines      : Nibble
  backlight      : Bool
  enable         : Bool
  rw             : Bool
  registerSelect : Bool
deriving DecidableEq, Repr

/-- A byte on the lines (R70, R80). -/
def pinsOf (b : Byte) : Pins := ⟨frameNibble b, frameBl b, frameE b, frameRw b, frameRs b⟩

/-- The pin view of a trace (R70): `none` where the lines are not known. -/
def pins (es : List Event) : Option Pins := (lastTx es).map pinsOf

/-- The number of `Tx` events (R72). -/
def countTx (es : List Event) : Nat := (txBytes es).length

/-- The number of `Delay(d)` events for one duration (R72). -/
def countDelay (d : Duration) (es : List Event) : Nat := es.count (.delay d)

/-- The minimum time the waits of a trace take (R260, R54): each delay is a lower bound, transmits are not counted. -/
def minDuration : List Event → Duration
  | [] => 0
  | .delay d :: es => d + minDuration es
  | _ :: es => minDuration es

/-- Every successful transmit is followed at once by a delay of d (R71). -/
def paced (d : Duration) : List Event → Bool
  | [] => true
  | .tx _ :: es => (es.head? == some (.delay d)) && paced d es
  | _ :: es => paced d es

end Sys2Proof.Machine
end

