-- ==== Sys2Proof/Safety.lean ====
section
/-! DEFINITION. The vocabulary of the statements: what the state holds after a run of transmits, the invariant of the
machine, and which instructions transmit, are public, or may write a state element. -/

namespace Sys2Proof.Machine

/-- The events of bytes transmitted one after the other, each answered `Ok` and each followed by its wait (R71). -/
def pacedTx (d : Duration) (bs : List Byte) : List Event := bs.flatMap (fun b => [.tx b, .delay d])

/-- The state after those transmits: the trace and the BUS transactions have grown, the answers are used up, and nothing
else has changed. -/
def State.afterSent (s : State) (bs : List Byte) : State :=
  { s with
    trace := s.trace ++ pacedTx s.cfg.tDelay bs
    bus := s.bus ++ bs.map (fun b => .wrote s.handle b .ok)
    busWrites := s.busWrites.drop bs.length }

/-- The state after one more transmit, of b, that the transport answered with the error d: TxFail(b), no wait. -/
def State.afterFailed (s : State) (b : Byte) (d : Detail) : State :=
  { s with
    trace := s.trace ++ [.txFail b]
    bus := s.bus ++ [.wrote s.handle b (.error d)]
    busWrites := s.busWrites.drop 1 }

/-- A BUS transaction with another handle in the place of the one passed; open passes none (00_scope.md R10). -/
def BusTransaction.withHandle (h : Handle) : BusTransaction → BusTransaction
  | .opened id addr a => .opened id addr a
  | .wrote _ b a => .wrote h b a
  | .closed _ => .closed h

/-- The transport's next n answers to writes are all `Ok`. -/
def State.writesOk (s : State) (n : Nat) : Prop := ∃ rest, s.busWrites = List.replicate n .ok ++ rest

/-- The transport's next k answers to writes are `Ok` and the one after them is the error d. -/
def State.writeFailsAt (s : State) (k : Nat) (d : Detail) : Prop :=
  ∃ rest, s.busWrites = List.replicate k .ok ++ .error d :: rest

/-- The six bytes WRITE transmits (42_bytewriter.md R131): hf, hf with enable, hf, lf, lf with enable, lf. -/
def sixBytes (value : Byte) (mode : Mode) (bl : Bool) : List Byte :=
  let hf := highFrame value mode bl
  let lf := lowFrame value mode bl
  [hf, hf ||| 0x04#8, hf, lf, lf ||| 0x04#8, lf]

/-- The 36 bytes INITSEQ transmits (43_initializer.md R141), from the rule's table. -/
def init36 : List Byte :=
  [0x38#8, 0x3C#8, 0x38#8, 0x38#8, 0x3C#8, 0x38#8] ++
  [0x38#8, 0x3C#8, 0x38#8, 0x28#8, 0x2C#8, 0x28#8] ++
  [0x08#8, 0x0C#8, 0x08#8, 0x68#8, 0x6C#8, 0x68#8] ++
  [0x08#8, 0x0C#8, 0x08#8, 0xC8#8, 0xCC#8, 0xC8#8] ++
  [0x28#8, 0x2C#8, 0x28#8, 0x88#8, 0x8C#8, 0x88#8] ++
  [0x08#8, 0x0C#8, 0x08#8, 0x18#8, 0x1C#8, 0x18#8]

/-- The instructions with the precondition OPEN = 1 (R167; the frame and command rows are transmits, R24). -/
def needsOpen : Instr → Bool
  | .frameCmdLo _ _ => true
  | .frameCmdHi _ _ => true
  | .frameDataLo _ _ => true
  | .frameDataHi _ _ => true
  | .ctrlResetA => true
  | .ctrlResetB => true
  | .ctrlEntryMode => true
  | .ctrlDisplayOn => true
  | .ctrlFunctionSet => true
  | .ctrlClear => true
  | .ctrlSetDdram _ => true
  | .init => false
  | .clear => true
  | .print _ _ _ => true
  | .setbl _ => false
  | .close => false
  | .frame _ _ _ => false
  | .strobe _ => true
  | .write _ _ => true
  | .initseq => true
  | .movecursor _ _ => true
  | .openBus => false

/-- The public operations (R92, D21). -/
def isPublic : Instr → Bool
  | .init => true
  | .clear => true
  | .print _ _ _ => true
  | .setbl _ => true
  | .close => true
  | .frameCmdLo _ _ => false
  | .frameCmdHi _ _ => false
  | .frameDataLo _ _ => false
  | .frameDataHi _ _ => false
  | .ctrlResetA => false
  | .ctrlResetB => false
  | .ctrlEntryMode => false
  | .ctrlDisplayOn => false
  | .ctrlFunctionSet => false
  | .ctrlClear => false
  | .ctrlSetDdram _ => false
  | .frame _ _ _ => false
  | .strobe _ => false
  | .write _ _ => false
  | .initseq => false
  | .movecursor _ _ => false
  | .openBus => false

/-- A single frame row of the table: one bare transmit, without the wait an operation makes after it (entry 11). -/
def isBareFrame : Instr → Bool
  | .frameCmdLo _ _ => true
  | .frameCmdHi _ _ => true
  | .frameDataLo _ _ => true
  | .frameDataHi _ _ => true
  | .ctrlResetA => false
  | .ctrlResetB => false
  | .ctrlEntryMode => false
  | .ctrlDisplayOn => false
  | .ctrlFunctionSet => false
  | .ctrlClear => false
  | .ctrlSetDdram _ => false
  | .init => false
  | .clear => false
  | .print _ _ _ => false
  | .setbl _ => false
  | .close => false
  | .frame _ _ _ => false
  | .strobe _ => false
  | .write _ _ => false
  | .initseq => false
  | .movecursor _ _ => false
  | .openBus => false

/-- What an instruction hands to WRITE, in order, as (register select, value), when it ends `Ok` from a state with OPEN =
`isOpen`: the list `bytes(trace)` shows of it (20_memory.md R69). STROBE and the frame rows do not go through WRITE. -/
def logicalBytes (c : Config) : Instr → List (Bool × Byte)
  | .ctrlResetA => [(false, 0x33#8)]
  | .ctrlResetB => [(false, 0x32#8)]
  | .ctrlEntryMode => [(false, 0x06#8)]
  | .ctrlDisplayOn => [(false, 0x0C#8)]
  | .ctrlFunctionSet => [(false, 0x28#8)]
  | .ctrlClear => [(false, 0x01#8)]
  | .ctrlSetDdram a => [(false, 1#1 ++ a)]
  | .init => initSeq.map (fun b => (false, b))
  | .initseq => initSeq.map (fun b => (false, b))
  | .clear => [(false, 0x01#8)]
  | .write v m => [(decide (m = .data), v)]
  | .movecursor row col =>
    match cursorByte c row col with
    | .ok v => [(false, v)]
    | .error _ => []
  | .print row col text =>
    if text.length = 0 then []
    else
      match cursorByte c row col with
      | .ok v => (false, v) :: text.map (fun ch => (true, ch))
      | .error _ => []
  | .setbl _ => []
  | .close => []
  | .frame _ _ _ => []
  | .openBus => []
  | .strobe _ => []
  | .frameCmdLo _ _ => []
  | .frameCmdHi _ _ => []
  | .frameDataLo _ _ => []
  | .frameDataHi _ _ => []

/-- What the step list of an operation in flight keeps, for OPEN = o and INITED = i: a transmit stands only where the
handle is held (R24, R167), an open only where it is not (R160), and INITED is never 1 without OPEN (R210) at a request to
the transport or at the end. -/
def stepsOk (o i : Bool) : List MicroOp → Bool
  | [] => o || !i
  | .busOpen _ _ :: ms => !o && !i && stepsOk o i ms
  | .busWrite _ :: ms => o && stepsOk o i ms
  | .wait _ :: ms => stepsOk o i ms
  | .busClose :: ms => o && stepsOk o i ms
  | .setBL _ :: ms => stepsOk o i ms
  | .setOPEN v :: ms => stepsOk v i ms
  | .setINITED v :: ms => stepsOk o v ms
  | .dropHandle :: ms => stepsOk o i ms

/-- A request to the transport, the only micro-operation the block can be held at (R53, R54). -/
def MicroOp.isRequest : MicroOp → Bool
  | .busOpen _ _ => true
  | .busWrite _ => true
  | .wait _ => false
  | .busClose => false
  | .setBL _ => false
  | .setOPEN _ => false
  | .setINITED _ => false
  | .dropHandle => false

/-- SEQ is idle, or holds an operation that waits at a request to the transport and keeps `stepsOk`. -/
def State.seqOk (s : State) : Bool :=
  match s.seq with
  | .idle => true
  | .busy [] _ => false
  | .busy (m :: ms) _ => m.isRequest && stepsOk s.isOpen s.inited (m :: ms)

/-- The invariant: a well-formed geometry (R22), INITED only while OPEN (R210), no wait left running between steps (R54),
and SEQ as `seqOk` says. -/
structure Inv (s : State) : Prop where
  geometry  : s.cfg.geometryOk
  lifecycle : s.inited = true → s.isOpen = true
  timer     : s.timer = 0
  seq       : s.seqOk = true

end Sys2Proof.Machine
end

