-- ==== Sys2Proof/Certificates/Slice0/Obligations.lean ====
section
/-! DEFINITION. The statements for the provers, from the numbered rules of spec/. A statement about an instruction's next
state gives the whole state as a record update, which is its frame: every field the update does not name is unchanged. -/

open Sys2Proof Sys2Proof.Machine

/-! ### Encoding -/

/-- 30_encoding.md R80, R81, R88, R92, R93: decoding the word the encoder writes for an instruction gives that instruction
back, with every operand. -/
def Obligations.DecodeOfEncode : Prop := ∀ i : Instr, decode (encode i) = .ok i

/-- The other direction: a word that decodes to i is the encoder's word for i, but for the fields its operation ignores
(R93). No two words of one format with different used fields have one meaning. -/
def Obligations.EncodeOfDecode : Prop :=
  ∀ (q : Request) (i : Instr), decode q = .ok i → encode i = q.used

/-- R81, R94: the four frame kinds partition the byte values with RW = 0, told apart by E and RS; a byte with RW = 1 is
rejected. -/
def Obligations.FrameKindsPartitionTheBytesWithRwClear : Prop :=
  ∀ b : Byte,
    (b.getLsbD 1 = true → decode (.frame8 b) = .error (.notFramed b)) ∧
    (b.getLsbD 1 = false → b.getLsbD 2 = false → b.getLsbD 0 = false →
      decode (.frame8 b) = .ok (.frameCmdLo (b.extractLsb' 4 4) (b.getLsbD 3))) ∧
    (b.getLsbD 1 = false → b.getLsbD 2 = true → b.getLsbD 0 = false →
      decode (.frame8 b) = .ok (.frameCmdHi (b.extractLsb' 4 4) (b.getLsbD 3))) ∧
    (b.getLsbD 1 = false → b.getLsbD 2 = false → b.getLsbD 0 = true →
      decode (.frame8 b) = .ok (.frameDataLo (b.extractLsb' 4 4) (b.getLsbD 3))) ∧
    (b.getLsbD 1 = false → b.getLsbD 2 = true → b.getLsbD 0 = true →
      decode (.frame8 b) = .ok (.frameDataHi (b.extractLsb' 4 4) (b.getLsbD 3)))

/-- R95: a request with one of the unassigned codes is rejected, whatever its fields, and every other code decodes. -/
def Obligations.UnassignedCodesAreRefused : Prop :=
  ∀ (op : BitVec 4) (f : Fields),
    if op.toNat ∈ [0, 6, 7, 14, 15] then decode (.cmdOp4 op f) = .error (.unassignedOp op)
    else ∃ i, decode (.cmdOp4 op f) = .ok i

/-- A sanity statement: words written out from the tables of R81, R88 and R92 decode to what they stand for. -/
def Obligations.TableWordsDecode : Prop :=
  decode (.frame8 0b01001000#8) = .ok (.frameCmdLo 4#4 true) ∧
  decode (.frame8 0b10010101#8) = .ok (.frameDataHi 9#4 false) ∧
  decode (.ctrl8 0b00110011#8) = .ok .ctrlResetA ∧
  decode (.ctrl8 0b10011001#8) = .ok (.ctrlSetDdram 0x19#7) ∧
  decode (.cmdOp4 0b0011#4 { row := 1, col := 0, text := [0x48#8, 0x49#8] }) = .ok (.print 1 0 [0x48#8, 0x49#8]) ∧
  decode (.cmdOp4 0b1010#4 { value := 0x48#8, mode := 1#1 }) = .ok (.write 0x48#8 .data) ∧
  decode (.cmdOp4 0b0100#4 { on := 1#1 }) = .ok (.setbl true)

/-! ### Reset and the step -/

/-- 70_reset_and_hazards.md R230, R231: what reset leaves, for every configuration; H and the timer have no value there. -/
def Obligations.ResetLeavesTheResetValues : Prop :=
  ∀ c : Config,
    (State.resetWith c).cfg = c ∧ (State.resetWith c).bl = c.blInit ∧ (State.resetWith c).isOpen = false ∧
    (State.resetWith c).seq = .idle ∧ (State.resetWith c).inited = false ∧ (State.resetWith c).trace = [] ∧
    (State.resetWith c).bus = [] ∧ (State.resetWith c).lifecycle = .closed

/-- R22 with 92_eei_decisions.md D15: construction gives the reset state for a well-formed geometry and refuses any
other. -/
def Obligations.ConstructionNeedsAWellFormedGeometry : Prop :=
  ∀ c : Config,
    (1 ≤ c.rows ∧ c.rows ≤ 4 ∧ 1 ≤ c.cols → construct c = .next (State.resetWith c)) ∧
    (¬(1 ≤ c.rows ∧ c.rows ≤ 4 ∧ 1 ≤ c.cols) → construct c = .refused .badGeometry)

/-- The step of an idle block: the oldest request is taken and, when it decodes to a well-formed instruction, executed; a
word the decoder rejects and an operand too wide for the binding are refused; with no request nothing happens (R60, R230;
the CMD queue is the model's, entry 8). -/
def Obligations.StepRunsTheDecodedInstruction : Prop :=
  ∀ s : State, s.seq = .idle →
    (s.cmd = [] → step s = .next s) ∧
    (∀ q qs, s.cmd = q :: qs →
      (∀ i, decode q = .ok i → i.wf s.cfg = true → step s = exec i { s with cmd := qs }) ∧
      (∀ i, decode q = .ok i → i.wf s.cfg = false → step s = .refused .operandTooWide) ∧
      (∀ e, decode q = .error e → step s = .refused (.undecodable e)))

/-- R60, D20: a request is taken only when SEQ is idle, and then the oldest one; exec itself refuses a second operation
while one is in flight (93 U1). -/
def Obligations.RequestsAreHeldOffWhileBusy : Prop :=
  (∀ s t : State, step s = .next t → t.cmd = if s.seq = .idle then s.cmd.tail else s.cmd) ∧
  (∀ (i : Instr) (s : State) (todo : List MicroOp) (r : Response), s.seq = .busy todo r → exec i s = .refused .busy)

/-- R53: while a write or an open is unanswered the block is stuck in it: SEQ does not advance, no RSP is produced, no
request is taken; the state is what it was. -/
def Obligations.UnansweredRequestsHoldTheBlock : Prop :=
  (∀ (s : State) (b : Byte) (ms : List MicroOp) (r : Response),
    s.seq = .busy (.busWrite b :: ms) r → s.busWrites = [] → step s = .next s) ∧
  (∀ (s : State) (id : BusId) (addr : BusAddr) (ms : List MicroOp) (r : Response),
    s.seq = .busy (.busOpen id addr :: ms) r → s.busOpens = [] → step s = .next s)

/-- R52, R53: when the transport answers makes no difference. If an instruction waits for an answer, and more answers
arrive, the next step leads where the instruction would have led with all the answers there at once. -/
def Obligations.LateAnswersLeadToTheSameState : Prop :=
  ∀ (i : Instr) (s t : State) (opens : List OpenAnswer) (writes : List WriteAnswer),
    exec i s = .next t → t.seq ≠ .idle →
    step { t with busOpens := t.busOpens ++ opens, busWrites := t.busWrites ++ writes }
      = exec i { s with busOpens := s.busOpens ++ opens, busWrites := s.busWrites ++ writes }

/-- R168: an operation that has started ends, with exactly one RSP transaction, unless it waits at a request that the
transport has not answered; then there is no RSP (R53). -/
def Obligations.AnOperationEndsUnlessUnanswered : Prop :=
  ∀ (i : Instr) (s t : State), exec i s = .next t →
    (t.seq = .idle ∧ ∃ r, t.rsp = s.rsp ++ [r]) ∨
    (t.rsp = s.rsp ∧
      ((∃ id addr, t.outstanding = .opening id addr ∧ t.busOpens = []) ∨
       (∃ h b, t.outstanding = .writing h b ∧ t.busWrites = [])))

/-- Where each instruction answers a next state: an idle block, OPEN = 1 for those that transmit (R167) and OPEN = 0 for
OPEN (R160), whatever the operands and the transport's answers. -/
def Obligations.EveryInstructionAnswersANextState : Prop :=
  ∀ (i : Instr) (s : State), s.seq = .idle → (needsOpen i = true → s.isOpen = true) →
    (i = .openBus → s.isOpen = false) → ∃ t, exec i s = .next t

/-! ### The invariant -/

/-- The invariant holds at reset for every well-formed geometry, the model's standard one among them. -/
def Obligations.ResetMeetsTheInvariant : Prop :=
  (∀ c : Config, c.geometryOk → Inv (State.resetWith c)) ∧ Inv State.reset

/-- Every step from a state with the invariant leads to one with it: the geometry stays well formed, INITED = 1 only with
OPEN = 1 (R210), no wait runs between steps, and an operation in flight waits at a request to the transport and issues no
transmit without a handle (R24, R53, R167). -/
def Obligations.StepKeepsTheInvariant : Prop :=
  ∀ s t : State, Inv s → step s = .next t → Inv t

/-- R22: no step changes the configuration. R60 (a), (b): what has happened on the channels stays: a step only appends to
the trace, the BUS transactions and the RSP transactions. -/
def Obligations.StepKeepsConfigurationAndHistory : Prop :=
  ∀ s t : State, step s = .next t →
    t.cfg = s.cfg ∧ (∃ es, t.trace = s.trace ++ es) ∧ (∃ bs, t.bus = s.bus ++ bs) ∧ (∃ rs, t.rsp = s.rsp ++ rs)

/-! ### FRAME -/

/-- 40_framer.md R110: the code, the result by the rule's formulas, and no state written but the RSP transaction, in every
lifecycle state; and the same in fields. -/
def Obligations.FrameReturnsBothFrames : Prop :=
  ∀ (value : Byte) (mode : Mode) (on : Bool) (s : State), s.seq = .idle →
    let modeB : Byte := if mode = .command then 0x00#8 else 0x01#8
    let backB : Byte := if on then 0x08#8 else 0x00#8
    let hf : Byte := modeB ||| (value &&& 0xF0#8) ||| backB
    let lf : Byte := modeB ||| ((value <<< 4) &&& 0xF0#8) ||| backB
    encode (.frame value mode on) = .cmdOp4 8#4 { value := value, mode := mode.toBit, on := BitVec.ofBool on } ∧
    exec (.frame value mode on) s = .next { s with rsp := s.rsp ++ [.frames hf lf] } ∧
    hf.extractLsb' 4 4 = value.extractLsb' 4 4 ∧ lf.extractLsb' 4 4 = value.extractLsb' 0 4 ∧
    (hf.getLsbD 3 = on ∧ lf.getLsbD 3 = on) ∧ (hf.getLsbD 2 = false ∧ lf.getLsbD 2 = false) ∧
    (hf.getLsbD 1 = false ∧ lf.getLsbD 1 = false) ∧
    (hf.getLsbD 0 = decide (mode = .data) ∧ lf.getLsbD 0 = decide (mode = .data))

/-- R111, R112 (the second half of R111 and R112 are marked as derived by the spec): the properties of FRAME's result over
all operands; value, mode and backlight can be read back from the pair; each frame has enable and RW clear and is of the
kind FRAME.CMD.LO or FRAME.DATA.LO; FRAME is injective. -/
def Obligations.FramerKeepsNibblesModeAndBacklight : Prop :=
  (∀ (value : Byte) (mode : Mode) (on : Bool),
    highFrame value mode on &&& 0xF0#8 = value &&& 0xF0#8 ∧
    lowFrame value mode on &&& 0xF0#8 = (value <<< 4) &&& 0xF0#8 ∧
    highFrame value mode on &&& 0x0F#8 = lowFrame value mode on &&& 0x0F#8 ∧
    value = (highFrame value mode on &&& 0xF0#8) ||| (lowFrame value mode on >>> 4) ∧
    (mode = .data ↔ (highFrame value mode on).getLsbD 0 = true) ∧
    (mode = .data ↔ (lowFrame value mode on).getLsbD 0 = true) ∧
    on = (highFrame value mode on).getLsbD 3 ∧ on = (lowFrame value mode on).getLsbD 3 ∧
    highFrame value mode on &&& 0x06#8 = 0#8 ∧ lowFrame value mode on &&& 0x06#8 = 0#8 ∧
    highFrame value mode on &&& 0xFB#8 = highFrame value mode on ∧
    lowFrame value mode on &&& 0xFB#8 = lowFrame value mode on ∧
    decode (.frame8 (highFrame value mode on)) = .ok (match mode with
      | .command => .frameCmdLo (value.extractLsb' 4 4) on
      | .data => .frameDataLo (value.extractLsb' 4 4) on) ∧
    decode (.frame8 (lowFrame value mode on)) = .ok (match mode with
      | .command => .frameCmdLo (value.extractLsb' 0 4) on
      | .data => .frameDataLo (value.extractLsb' 0 4) on)) ∧
  (∀ (v v' : Byte) (m m' : Mode) (on on' : Bool),
    highFrame v m on = highFrame v' m' on' → lowFrame v m on = lowFrame v' m' on' → v = v' ∧ m = m' ∧ on = on')

/-! ### STROBE -/

/-- 41_strobe.md R120: wait, transmit with enable set, wait, transmit with enable clear, wait; T_DELAY each time; no state
of the block's is written. -/
def Obligations.StrobeTransmitsTheEnablePulse : Prop :=
  ∀ (f : Byte) (s : State), s.seq = .idle → s.isOpen = true → s.writesOk 2 →
    encode (.strobe f) = .cmdOp4 9#4 { value := f } ∧
    exec (.strobe f) s = .next
      { s with
        trace := s.trace ++ [.delay s.cfg.tDelay, .tx (f ||| 0x04#8), .delay s.cfg.tDelay, .tx (f &&& 0xFB#8),
          .delay s.cfg.tDelay]
        bus := s.bus ++ [.wrote s.handle (f ||| 0x04#8) .ok, .wrote s.handle (f &&& 0xFB#8) .ok]
        busWrites := s.busWrites.drop 2
        timer := 0
        rsp := s.rsp ++ [.ok] }

/-- R122: a failed transmit ends the strobe with the transport's error; the wait after it and the later steps do not run;
no state of the block changes. -/
def Obligations.StrobeAbortsAtAFailedTransmit : Prop :=
  ∀ (f : Byte) (s : State) (d : Detail), s.seq = .idle → s.isOpen = true →
    (s.writeFailsAt 0 d → exec (.strobe f) s = .next
      { s with
        trace := s.trace ++ [.delay s.cfg.tDelay, .txFail (f ||| 0x04#8)]
        bus := s.bus ++ [.wrote s.handle (f ||| 0x04#8) (.error d)]
        busWrites := s.busWrites.drop 1
        timer := 0
        rsp := s.rsp ++ [.err (.transportError d)] }) ∧
    (s.writeFailsAt 1 d → exec (.strobe f) s = .next
      { s with
        trace := s.trace ++ [.delay s.cfg.tDelay, .tx (f ||| 0x04#8), .delay s.cfg.tDelay, .txFail (f &&& 0xFB#8)]
        bus := s.bus ++ [.wrote s.handle (f ||| 0x04#8) .ok, .wrote s.handle (f &&& 0xFB#8) (.error d)]
        busWrites := s.busWrites.drop 2
        timer := 0
        rsp := s.rsp ++ [.err (.transportError d)] })

/-- R121: STROBE does not inspect its operand: the bytes it transmits agree with the operand in bits 7 to 3, 1 and 0, the
first has bit 2 set and the second has it clear; an operand with bit 2 set is its own first transmit. -/
def Obligations.StrobeDoesNotInspectItsOperand : Prop :=
  ∀ (f : Byte) (s : State), s.seq = .idle → s.isOpen = true → s.writesOk 2 →
    ∃ (t : State) (x y : Byte),
      exec (.strobe f) s = .next t ∧
      t.trace = s.trace ++ [.delay s.cfg.tDelay, .tx x, .delay s.cfg.tDelay, .tx y, .delay s.cfg.tDelay] ∧
      x = f ||| 0x04#8 ∧ y = f &&& 0xFB#8 ∧
      (∀ n, n ≠ 2 → n < 8 → x.getLsbD n = f.getLsbD n ∧ y.getLsbD n = f.getLsbD n) ∧
      x.getLsbD 2 = true ∧ y.getLsbD 2 = false ∧ (f.getLsbD 2 = true → x = f)

/-! ### WRITE and the table's bytes -/

/-- 42_bytewriter.md R130, R131: WRITE transmits hf, hf with enable, hf, lf, lf with enable, lf, each followed by a wait of
T_DELAY, and writes no state of the block's. -/
def Obligations.WriteSendsBothNibblesHighFirst : Prop :=
  ∀ (v : Byte) (m : Mode) (s : State), s.seq = .idle → s.isOpen = true → s.writesOk 6 →
    encode (.write v m) = .cmdOp4 10#4 { value := v, mode := m.toBit } ∧
    exec (.write v m) s = .next
      { s with
        trace := s.trace ++ (sixBytes v m s.bl).flatMap (fun b => [.tx b, .delay s.cfg.tDelay])
        bus := s.bus ++ (sixBytes v m s.bl).map (fun b => .wrote s.handle b .ok)
        busWrites := s.busWrites.drop 6
        timer := 0
        rsp := s.rsp ++ [.ok] }

/-- R132: if the k-th of the six transmits (k from 0) fails, the trace holds the steps before it and TxFail of that byte, no
later step runs, WRITE ends with the error, and no state of the block changes. -/
def Obligations.WriteStopsAtItsFailingTransmit : Prop :=
  ∀ (v : Byte) (m : Mode) (s : State) (k : Nat) (d : Detail),
    s.seq = .idle → s.isOpen = true → k < 6 → s.writeFailsAt k d →
    exec (.write v m) s = .next
      { (s.afterSent ((sixBytes v m s.bl).take k)).afterFailed ((sixBytes v m s.bl).getD k 0#8) d with
        timer := if k = 0 then s.timer else 0
        rsp := s.rsp ++ [.err (.transportError d)] }

/-- R133 with R131: however a WRITE goes, every byte it has transmitted or tried to carries in bit 3 the BL of its start, 0
in bit 1 and the mode in bit 0. -/
def Obligations.WriteCarriesOneBacklightAndMode : Prop :=
  ∀ (v : Byte) (m : Mode) (s t : State), exec (.write v m) s = .next t →
    ∃ es, t.trace = s.trace ++ es ∧
      ∀ b, .tx b ∈ es ∨ .txFail b ∈ es →
        b.getLsbD 3 = s.bl ∧ b.getLsbD 1 = false ∧ b.getLsbD 0 = decide (m = .data)

/-- R132 table and R131: the strobes a WRITE completes, read from the trace by R68: both nibbles when no transmit fails;
none if one of the first three fails, and the high nibble alone if one of the last three does. -/
def Obligations.StrobesOfAWrite : Prop :=
  ∀ (v : Byte) (m : Mode) (s : State), s.seq = .idle → s.isOpen = true →
    (s.writesOk 6 → ∃ t es, exec (.write v m) s = .next t ∧ t.trace = s.trace ++ es ∧
      strobes es = [(decide (m = .data), v.extractLsb' 4 4), (decide (m = .data), v.extractLsb' 0 4)]) ∧
    (∀ k d, k < 6 → s.writeFailsAt k d → ∃ t es, exec (.write v m) s = .next t ∧ t.trace = s.trace ++ es ∧
      strobes es = if k < 3 then [] else [(decide (m = .data), v.extractLsb' 4 4)])

/-- R88: each controller command byte of the table goes out as that byte through WRITE in Command mode. That a row run as
an instruction of its own is this WRITE is the model's choice (entry 12). -/
def Obligations.CommandBytesAreSentThroughWrite : Prop :=
  ∀ (s : State), s.seq = .idle → s.isOpen = true → s.writesOk 6 →
    ∀ (i : Instr) (v : Byte),
      ((i = .ctrlResetA ∧ v = 0x33#8) ∨ (i = .ctrlResetB ∧ v = 0x32#8) ∨ (i = .ctrlEntryMode ∧ v = 0x06#8) ∨
       (i = .ctrlDisplayOn ∧ v = 0x0C#8) ∨ (i = .ctrlFunctionSet ∧ v = 0x28#8) ∨ (i = .ctrlClear ∧ v = 0x01#8) ∨
       (∃ a : BitVec 7, i = .ctrlSetDdram a ∧ v = BitVec.ofNat 8 (0x80 + a.toNat))) →
      exec i s = .next
        { s.afterSent (sixBytes v .command s.bl) with
          timer := 0
          rsp := s.rsp ++ [.ok] }

/-- R81, R50: a frame row is one transmit of its byte, here with the fields as numbers, answered `Ok` or with an error. That
a row run as an instruction of its own is this transmit is the model's choice (entry 11). -/
def Obligations.FrameRowsTransmitOneByte : Prop :=
  ∀ (s : State) (d : Nibble) (bl : Bool), s.seq = .idle → s.isOpen = true →
    ∀ (i : Instr) (e rs : Nat),
      ((i = .frameCmdLo d bl ∧ e = 0 ∧ rs = 0) ∨ (i = .frameCmdHi d bl ∧ e = 1 ∧ rs = 0) ∨
       (i = .frameDataLo d bl ∧ e = 0 ∧ rs = 1) ∨ (i = .frameDataHi d bl ∧ e = 1 ∧ rs = 1)) →
      let b : Byte := BitVec.ofNat 8 (16 * d.toNat + 8 * bl.toNat + 4 * e + rs)
      (s.writesOk 1 → exec i s = .next
        { s with
          trace := s.trace ++ [.tx b]
          bus := s.bus ++ [.wrote s.handle b .ok]
          busWrites := s.busWrites.drop 1
          rsp := s.rsp ++ [.ok] }) ∧
      (∀ det, s.writeFailsAt 0 det → exec i s = .next
        { s.afterFailed b det with rsp := s.rsp ++ [.err (.transportError det)] })

/-! ### INITSEQ -/

/-- 43_initializer.md R140, R141: BL becomes 1 first, whatever it was; the 36 bytes of the rule's table, each followed by
T_DELAY; then T_SETTLE_INIT; INITED becomes 1; nothing else is written. Read by R68 it is twelve nibbles. -/
def Obligations.InitseqSendsTheSixCommands : Prop :=
  (∀ s : State, s.seq = .idle → s.isOpen = true → s.writesOk 36 →
    exec .initseq s = .next
      { s.afterSent init36 with
        bl := true
        inited := true
        trace := s.trace ++ init36.flatMap (fun b => [.tx b, .delay s.cfg.tDelay]) ++ [.delay s.cfg.tSettleInit]
        timer := 0
        rsp := s.rsp ++ [.ok] }) ∧
  (∀ d : Duration, strobes (init36.flatMap (fun b => [.tx b, .delay d]))
      = [3, 3, 3, 2, 0, 6, 0, 12, 2, 8, 0, 1].map (fun n => (false, BitVec.ofNat 4 n))) ∧
  encode .initseq = .cmdOp4 11#4 { }

/-- R142: if the k-th of the 36 transmits (k from 0) fails, the rest is not sent, the settle delay is not kept, BL stays 1
and INITED is 0. -/
def Obligations.InitseqStopsAtItsFailingTransmit : Prop :=
  ∀ (s : State) (k : Nat) (d : Detail), s.seq = .idle → s.isOpen = true → k < 36 → s.writeFailsAt k d →
    exec .initseq s = .next
      { (s.afterSent (init36.take k)).afterFailed (init36.getD k 0#8) d with
        bl := true
        inited := false
        timer := if k = 0 then s.timer else 0
        rsp := s.rsp ++ [.err (.transportError d)] }

/-! ### MOVECURSOR -/

/-- 44_cursor.md R150, R153, R154: with the operands in range, col = COLS among them, MOVECURSOR is one Command write of the
table's entry plus col, modulo 256, and writes no state of the block's. -/
def Obligations.MovecursorSendsTheAddressCommand : Prop :=
  ∀ (s : State) (row col base : Nat), s.seq = .idle → s.isOpen = true → s.writesOk 6 →
    (row, base) ∈ [(1, 0x80), (2, 0xC0), (3, 0x94), (4, 0xD4)] → row ≤ s.cfg.rows → col ≤ s.cfg.cols →
    exec (.movecursor row col) s = .next
      { s.afterSent (sixBytes (BitVec.ofNat 8 ((base + col) % 256)) .command s.bl) with
        timer := 0
        rsp := s.rsp ++ [.ok] }

/-- R151: the checks of R150 in their order; the first that fails decides the error; row 0 and a bad row with a bad column
give RowOutOfRange; nothing is transmitted and nothing is written but the RSP transaction. The third clause is check 3, a
row without a table entry. -/
def Obligations.MovecursorRejectsInOrder : Prop :=
  ∀ (s : State) (row col : Nat), s.seq = .idle → s.isOpen = true →
    (row < 1 ∨ row > s.cfg.rows →
      exec (.movecursor row col) s = .next { s with rsp := s.rsp ++ [.err .rowOutOfRange] }) ∧
    (1 ≤ row → row ≤ s.cfg.rows → col > s.cfg.cols →
      exec (.movecursor row col) s = .next { s with rsp := s.rsp ++ [.err .colOutOfRange] }) ∧
    (4 < row → row ≤ s.cfg.rows → col ≤ s.cfg.cols →
      exec (.movecursor row col) s = .next { s with rsp := s.rsp ++ [.err .rowOutOfRange] })

/-- R155: rows 1 and 3, and rows 2 and 4, alias at a distance of 20 columns: the two operations are one, in every state. -/
def Obligations.RowsAliasTwentyColumnsApart : Prop :=
  ∀ (s : State) (col : Nat), col + 20 ≤ s.cfg.cols →
    (3 ≤ s.cfg.rows → exec (.movecursor 1 (col + 20)) s = exec (.movecursor 3 col) s) ∧
    (4 ≤ s.cfg.rows → exec (.movecursor 2 (col + 20)) s = exec (.movecursor 4 col) s)

/-- R152: with a well-formed geometry an accepted row has a table entry, so check 3 never fires. R156: with COLS at most 43
no accepted pair wraps and the byte is a set-DDRAM-address command; row 4 wraps from column 44, row 2 from 64, row 3 from
108 and row 1 from 128, where the byte is 0. The wrap is the spec's own decision D8 (entry 13). -/
def Obligations.CursorByteWrapsOnlyAboveColumn43 : Prop :=
  (∀ (c : Config) (row col : Nat), c.geometryOk → 1 ≤ row → row ≤ c.rows → col ≤ c.cols →
    ∃ v, cursorByte c row col = .ok v) ∧
  (∀ (c : Config) (row col : Nat) (v : Byte), c.cols ≤ 43 → cursorByte c row col = .ok v →
    v.getLsbD 7 = true ∧ ∃ base, tableT row = some base ∧ v.toNat = base.toNat + col) ∧
  (∀ c : Config, c.rows = 4 →
    (44 ≤ c.cols → cursorByte c 4 44 = .ok 0#8 ∧ cursorByte c 4 43 = .ok 0xFF#8) ∧
    (64 ≤ c.cols → cursorByte c 2 64 = .ok 0#8 ∧ cursorByte c 2 63 = .ok 0xFF#8) ∧
    (108 ≤ c.cols → cursorByte c 3 108 = .ok 0#8 ∧ cursorByte c 3 107 = .ok 0xFF#8) ∧
    (128 ≤ c.cols → cursorByte c 1 128 = .ok 0#8 ∧ cursorByte c 1 127 = .ok 0xFF#8))

/-! ### The facade -/

/-- 45_facade.md R160: OPEN takes the handle and sets OPEN, on success only; BL is not touched; it is refused while the
block holds a handle (R212). -/
def Obligations.OpenTakesTheHandle : Prop :=
  (∀ (s : State) (h : Handle) (rest : List OpenAnswer), s.seq = .idle → s.isOpen = false →
    s.busOpens = .handle h :: rest →
    exec .openBus s = .next
      { s with
        handle := h
        isOpen := true
        trace := s.trace ++ [.opened]
        bus := s.bus ++ [.opened s.cfg.busId s.cfg.busAddr (.handle h)]
        busOpens := rest
        rsp := s.rsp ++ [.ok] }) ∧
  (∀ (s : State) (d : Detail) (rest : List OpenAnswer), s.seq = .idle → s.isOpen = false →
    s.busOpens = .error d :: rest →
    exec .openBus s = .next
      { s with
        trace := s.trace ++ [.openFail]
        bus := s.bus ++ [.opened s.cfg.busId s.cfg.busAddr (.error d)]
        busOpens := rest
        rsp := s.rsp ++ [.err (.transportError d)] }) ∧
  (∀ s : State, s.seq = .idle → s.isOpen = true → exec .openBus s = .refused .alreadyOpen) ∧
  encode .openBus = .cmdOp4 13#4 { }

/-- R161: INIT opens if not open and then runs INITSEQ; if the open fails INITSEQ does not run, BL is not changed and
nothing is transmitted; with OPEN = 1 it is INITSEQ. -/
def Obligations.InitOpensThenInitialises : Prop :=
  (∀ (s : State) (h : Handle) (rest : List OpenAnswer), s.seq = .idle → s.isOpen = false →
    s.busOpens = .handle h :: rest → s.writesOk 36 →
    exec .init s = .next
      { s with
        handle := h
        isOpen := true
        bl := true
        inited := true
        trace := s.trace ++ [.opened] ++ init36.flatMap (fun b => [.tx b, .delay s.cfg.tDelay])
          ++ [.delay s.cfg.tSettleInit]
        bus := s.bus ++ [.opened s.cfg.busId s.cfg.busAddr (.handle h)] ++ init36.map (fun b => .wrote h b .ok)
        busOpens := rest
        busWrites := s.busWrites.drop 36
        timer := 0
        rsp := s.rsp ++ [.ok] }) ∧
  (∀ (s : State) (d : Detail) (rest : List OpenAnswer), s.seq = .idle → s.isOpen = false →
    s.busOpens = .error d :: rest →
    exec .init s = .next
      { s with
        trace := s.trace ++ [.openFail]
        bus := s.bus ++ [.opened s.cfg.busId s.cfg.busAddr (.error d)]
        busOpens := rest
        rsp := s.rsp ++ [.err (.transportError d)] }) ∧
  (∀ s : State, s.isOpen = true → exec .init s = exec .initseq s) ∧
  encode .init = .cmdOp4 1#4 { }

/-- R161 with R142: an INIT that opens and then fails at the k-th of its 36 transmits (k from 0) leaves the handle held, BL
1 and INITED 0. -/
def Obligations.InitKeepsTheHandleWhenInitseqFails : Prop :=
  ∀ (s : State) (h : Handle) (rest : List OpenAnswer) (k : Nat) (d : Detail), s.seq = .idle → s.isOpen = false →
    s.busOpens = .handle h :: rest → k < 36 → s.writeFailsAt k d →
    exec .init s = .next
      { s with
        handle := h
        isOpen := true
        bl := true
        inited := false
        trace := s.trace ++ [.opened] ++ (init36.take k).flatMap (fun b => [.tx b, .delay s.cfg.tDelay])
          ++ [.txFail (init36.getD k 0#8)]
        bus := s.bus ++ [.opened s.cfg.busId s.cfg.busAddr (.handle h)]
          ++ (init36.take k).map (fun b => .wrote h b .ok) ++ [.wrote h (init36.getD k 0#8) (.error d)]
        busOpens := rest
        busWrites := s.busWrites.drop (k + 1)
        timer := if k = 0 then s.timer else 0
        rsp := s.rsp ++ [.err (.transportError d)] }

/-- R162: CLEAR is one Command write of 0x01, with no delay beyond the strobe's own and no state written; CLEAR twice in a
row transmits the same six bytes twice. -/
def Obligations.ClearSendsTheClearCommand : Prop :=
  (∀ s : State, s.seq = .idle → s.isOpen = true → s.writesOk 6 →
    exec .clear s = .next
      { s.afterSent (sixBytes 0x01#8 .command s.bl) with
        timer := 0
        rsp := s.rsp ++ [.ok] }) ∧
  (∀ s : State, s.seq = .idle → s.isOpen = true → s.writesOk 12 →
    ∃ t u, exec .clear s = .next t ∧ exec .clear t = .next u ∧
      t.trace = s.trace ++ pacedTx s.cfg.tDelay (sixBytes 0x01#8 .command s.bl) ∧
      u.trace = t.trace ++ pacedTx s.cfg.tDelay (sixBytes 0x01#8 .command s.bl)) ∧
  encode .clear = .cmdOp4 2#4 { }

/-- R163: a non-empty text that fits, at a row of the geometry: the cursor command, then one Data write for each byte, first
byte first; no state written. -/
def Obligations.PrintSendsTheCursorThenTheText : Prop :=
  ∀ (s : State) (row col base : Nat) (text : List Byte), s.seq = .idle → s.isOpen = true →
    s.writesOk (6 * (text.length + 1)) → text ≠ [] → text.length + col ≤ s.cfg.cols →
    (row, base) ∈ [(1, 0x80), (2, 0xC0), (3, 0x94), (4, 0xD4)] → row ≤ s.cfg.rows →
    exec (.print row col text) s = .next
      { s.afterSent (sixBytes (BitVec.ofNat 8 ((base + col) % 256)) .command s.bl
          ++ text.flatMap (fun ch => sixBytes ch .data s.bl)) with
        timer := 0
        rsp := s.rsp ++ [.ok] }

/-- R164: PRINT's early ends, by the order of its checks: the overflow check before everything, then the empty text, whose
row is never looked at, then the row; each with no bus activity and nothing written but the RSP transaction. -/
def Obligations.PrintEndsEarlyInOrder : Prop :=
  ∀ (s : State) (row col : Nat) (text : List Byte), s.seq = .idle → s.isOpen = true →
    (text.length + col > s.cfg.cols →
      exec (.print row col text) s = .next { s with rsp := s.rsp ++ [.err .colOutOfRange] }) ∧
    (text = [] → col ≤ s.cfg.cols →
      exec (.print row col text) s = .next { s with rsp := s.rsp ++ [.ok] }) ∧
    (text ≠ [] → text.length + col ≤ s.cfg.cols → row = 0 ∨ row > s.cfg.rows ∨ row > 4 →
      exec (.print row col text) s = .next { s with rsp := s.rsp ++ [.err .rowOutOfRange] })

/-- R163, R164: a PRINT whose k-th transmit (k from 0) fails stops there: the transmits before it stay, the characters after
it are not sent, no state is written. -/
def Obligations.PrintStopsAtItsFailingTransmit : Prop :=
  ∀ (s : State) (row col base : Nat) (text : List Byte) (k : Nat) (d : Detail), s.seq = .idle → s.isOpen = true →
    text ≠ [] → text.length + col ≤ s.cfg.cols →
    (row, base) ∈ [(1, 0x80), (2, 0xC0), (3, 0x94), (4, 0xD4)] → row ≤ s.cfg.rows →
    k < 6 * (text.length + 1) → s.writeFailsAt k d →
    let bs := sixBytes (BitVec.ofNat 8 ((base + col) % 256)) .command s.bl
      ++ text.flatMap (fun ch => sixBytes ch .data s.bl)
    exec (.print row col text) s = .next
      { (s.afterSent (bs.take k)).afterFailed (bs.getD k 0#8) d with
        timer := if k = 0 then s.timer else 0
        rsp := s.rsp ++ [.err (.transportError d)] }

/-- R165: SETBL writes BL and nothing else, with no bus activity and no status, in every lifecycle state. -/
def Obligations.SetblWritesOnlyTheBacklight : Prop :=
  (∀ (on : Bool) (s : State), s.seq = .idle →
    exec (.setbl on) s = .next { s with bl := on, rsp := s.rsp ++ [.noStatus] }) ∧
  (∀ on : Bool, encode (.setbl on) = .cmdOp4 4#4 { on := BitVec.ofBool on })

/-- R166: CLOSE releases the handle, clears OPEN and INITED and keeps BL; with OPEN = 0 it does nothing. What H holds
afterwards is open (R25). -/
def Obligations.CloseReleasesTheHandle : Prop :=
  (∀ s : State, s.seq = .idle → s.isOpen = true →
    ∃ (h : Handle) (n : Nat), exec .close s = .next
      { s with
        isOpen := false
        inited := false
        handle := h
        draws := n
        trace := s.trace ++ [.closed]
        bus := s.bus ++ [.closed s.handle]
        rsp := s.rsp ++ [.noStatus] }) ∧
  (∀ s : State, s.seq = .idle → s.isOpen = false →
    exec .close s = .next { s with rsp := s.rsp ++ [.noStatus] }) ∧
  encode .close = .cmdOp4 5#4 { }

/-- R167: STROBE, WRITE, INITSEQ, MOVECURSOR, CLEAR and PRINT are refused while OPEN = 0, whatever their operands; FRAME,
SETBL, INIT, OPEN and CLOSE are not. -/
def Obligations.TransmittingOperationsAreRefusedWhileClosed : Prop :=
  ∀ s : State, s.seq = .idle → s.isOpen = false →
    (∀ f, exec (.strobe f) s = .refused .notOpen) ∧ (∀ v m, exec (.write v m) s = .refused .notOpen) ∧
    exec .initseq s = .refused .notOpen ∧ (∀ row col, exec (.movecursor row col) s = .refused .notOpen) ∧
    exec .clear s = .refused .notOpen ∧ (∀ row col text, exec (.print row col text) s = .refused .notOpen) ∧
    (∀ v m on, ∃ t, exec (.frame v m on) s = .next t) ∧ (∀ on, ∃ t, exec (.setbl on) s = .next t) ∧
    (∃ t, exec .init s = .next t) ∧ (∃ t, exec .openBus s = .next t) ∧ (∃ t, exec .close s = .next t)

/-- R98: CLEAR, an accepted MOVECURSOR and INIT are exactly the compositions the rule's table names, in every state, whatever
the transport answers; the command rows run as WRITEs are the model's choice (entry 12). An operation run as a sub-step
has no RSP transaction of its own, so the one of OPEN is taken back. -/
def Obligations.CompositionsAreExact : Prop :=
  ∀ s : State,
    exec .clear s = exec (.write 0x01#8 .command) s ∧
    (∀ row col v, cursorByte s.cfg row col = .ok v → exec (.movecursor row col) s = exec (.write v .command) s) ∧
    (s.isOpen = true → exec .init s = exec .initseq s) ∧
    (∀ t, exec .openBus s = .next t → t.isOpen = true → exec .init s = exec .initseq { t with rsp := s.rsp }) ∧
    (∀ t, exec .openBus s = .next t → t.rsp ≠ s.rsp ++ [.ok] → t.seq = .idle → exec .init s = .next t) ∧
    (∀ a : BitVec 7, exec (.ctrlSetDdram a) s = exec (.write (1#1 ++ a) .command) s)

/-- R130, R98: WRITE is a setup transmit of the high frame, STROBE of it, a setup transmit of the low frame, STROBE of it:
run one after the other, the four leave what WRITE leaves, but for the RSP transactions, of which WRITE has one. The setup
transmit is the table's frame row (entry 11). -/
def Obligations.WriteIsTwoStrobedNibbles : Prop :=
  ∀ (v : Byte) (m : Mode) (s : State), s.seq = .idle → s.isOpen = true → s.writesOk 6 →
    let setup : Nibble → Instr := fun n => match m with
      | .command => .frameCmdLo n s.bl
      | .data => .frameDataLo n s.bl
    ∃ t1 t2 t3 t4 : State,
      exec (setup (v.extractLsb' 4 4)) s = .next t1 ∧ exec (.strobe (highFrame v m s.bl)) t1 = .next t2 ∧
      exec (setup (v.extractLsb' 0 4)) t2 = .next t3 ∧ exec (.strobe (lowFrame v m s.bl)) t3 = .next t4 ∧
      exec (.write v m) s = .next { t4 with rsp := s.rsp ++ [.ok] }

/-! ### Who writes which state element -/

/-- 10_state.md R23: BL is written by SETBL, to its operand, and by INITSEQ (so also INIT), to 1; by nothing else, and no
error changes it. -/
def Obligations.BacklightIsWrittenBySetblAndInitseqOnly : Prop :=
  ∀ (i : Instr) (s t : State), exec i s = .next t →
    (∀ on, i = .setbl on → t.bl = on) ∧
    (i = .initseq → t.bl = true) ∧
    (i = .init → t.bl = s.bl ∨ t.bl = true) ∧
    ((∀ on, i ≠ .setbl on) → i ≠ .initseq → i ≠ .init → t.bl = s.bl)

/-- R24, R25: OPEN is set by OPEN (so also INIT) and cleared by CLOSE, and by nothing else; a transport error on a write
does not change it and a failed open leaves it 0. H is written by the same three and by nothing else. -/
def Obligations.OpenAndHandleAreWrittenByOpenAndCloseOnly : Prop :=
  ∀ (i : Instr) (s t : State), exec i s = .next t →
    (t.handle ≠ s.handle →
      (i = .openBus ∧ s.isOpen = false) ∨ (i = .init ∧ s.isOpen = false) ∨ (i = .close ∧ s.isOpen = true)) ∧
    (i = .close → t.isOpen = false) ∧
    (i = .openBus → s.isOpen = false ∧ (t.isOpen = true ↔ t.rsp = s.rsp ++ [.ok])) ∧
    (i = .init → s.isOpen = true → t.isOpen = true) ∧
    (i ≠ .close → i ≠ .openBus → i ≠ .init → t.isOpen = s.isOpen) ∧
    (∀ d, i = .openBus → t.rsp = s.rsp ++ [.err (.transportError d)] → t.isOpen = false)

/-- R25, D27: H is opaque: the block does nothing with it but pass it back. With h in the place of H an instruction gives
the same next state, but for two things: where H was held at the start (OPEN = 1) the BUS transactions it adds pass h where
they passed H, and are otherwise the same one by one; and H itself is h after it, unless the instruction wrote H (a CLOSE of
an open session, an open that was answered with a handle). -/
def Obligations.HandleIsOpaque : Prop :=
  ∀ (i : Instr) (s t : State) (h : Handle), exec i s = .next t →
    ∃ new, t.bus = s.bus ++ new ∧
      exec i { s with handle := h } = .next
        { t with
          handle := if (i = .close ∧ s.isOpen = true) ∨ (s.isOpen = false ∧ t.isOpen = true) then t.handle else h
          bus := s.bus ++ if s.isOpen then new.map (BusTransaction.withHandle h) else new }

/-- R32: INITED is 1 after INITSEQ or INIT exactly when it ended `Ok`; CLOSE of an open session leaves it 0; no other
operation writes it. -/
def Obligations.InitedMeansTheLastInitseqEndedOk : Prop :=
  ∀ (i : Instr) (s t : State), exec i s = .next t →
    (i = .initseq → (t.inited = true ↔ t.rsp = s.rsp ++ [.ok])) ∧
    (i = .init → s.isOpen = true → (t.inited = true ↔ t.rsp = s.rsp ++ [.ok])) ∧
    (i = .init → s.inited = false → (t.inited = true ↔ t.rsp = s.rsp ++ [.ok])) ∧
    (i = .close → s.isOpen = true → t.inited = false) ∧
    (i ≠ .initseq → i ≠ .init → i ≠ .close → t.inited = s.inited)

/-- R32, R33: no operation reads the ghosts: whatever INITED and TRACE hold, the instruction does the same to everything
else, and appends the same events. -/
def Obligations.GhostsAreNotRead : Prop :=
  ∀ (i : Instr) (s t : State) (g : Bool) (es : List Event), exec i s = .next t →
    ∃ t' new, exec i { s with inited := g, trace := es } = .next t' ∧
      t.trace = s.trace ++ new ∧ t'.trace = es ++ new ∧
      { t' with inited := t.inited, trace := t.trace } = t

/-! ### Errors -/

/-- 60_exceptions.md R191: the status codes and what is recorded with each error. -/
def Obligations.StatusCodesAreTheTables : Prop :=
  Response.statusCode .ok = some 0#2 ∧
  Response.statusCode (.err .rowOutOfRange) = some 1#2 ∧ Err.detail .rowOutOfRange = none ∧
  Response.statusCode (.err .colOutOfRange) = some 2#2 ∧ Err.detail .colOutOfRange = none ∧
  (∀ d, Response.statusCode (.err (.transportError d)) = some 3#2 ∧ Err.detail (.transportError d) = some d)

/-- R194: which operation may end with which error; every error not in the rule's table is impossible, for every operand,
state and script of answers. -/
def Obligations.ErrorsFollowTheMatrix : Prop :=
  ∀ (i : Instr) (s t : State) (e : Err), exec i s = .next t → t.rsp = s.rsp ++ [.err e] →
    (e = .rowOutOfRange → (∃ row col, i = .movecursor row col) ∨ (∃ row col text, i = .print row col text)) ∧
    (e = .colOutOfRange → (∃ row col, i = .movecursor row col) ∨ (∃ row col text, i = .print row col text)) ∧
    (∀ d, e = .transportError d → (∀ v m on, i ≠ .frame v m on) ∧ (∀ on, i ≠ .setbl on) ∧ i ≠ .close)

/-- R202: the range errors are precise: the state and the trace are as before the request, but for the RSP transaction. -/
def Obligations.RangeErrorsArePrecise : Prop :=
  ∀ (i : Instr) (s t : State) (e : Err), exec i s = .next t → t.rsp = s.rsp ++ [.err e] →
    e = .rowOutOfRange ∨ e = .colOutOfRange → t = { s with rsp := s.rsp ++ [.err e] }

/-- R200, R201: an error writes no state element, but for what INITSEQ and INIT have written before it; after a transport
error the last event of the trace is the failed transmit or the failed open, and SEQ is idle. -/
def Obligations.ErrorsWriteNoState : Prop :=
  ∀ (i : Instr) (s t : State) (e : Err), exec i s = .next t → t.rsp = s.rsp ++ [.err e] →
    t.seq = .idle ∧
    (i ≠ .init → i ≠ .initseq →
      t.bl = s.bl ∧ t.isOpen = s.isOpen ∧ t.handle = s.handle ∧ t.inited = s.inited) ∧
    (∀ d, e = .transportError d → ∃ es last, t.trace = s.trace ++ es ++ [last] ∧
      (last = .openFail ∨ ∃ b, last = .txFail b))

/-- R211: the transitions of the lifecycle under the public operations, for an operation that has ended. -/
def Obligations.LifecycleTransitions : Prop :=
  ∀ (i : Instr) (s t : State), isPublic i = true → (s.inited = true → s.isOpen = true) →
    exec i s = .next t → t.seq = .idle →
    (i = .close → t.lifecycle = .closed) ∧
    (i ≠ .init → i ≠ .close → t.lifecycle = s.lifecycle) ∧
    (i = .init → t.rsp = s.rsp ++ [.ok] → t.lifecycle = .ready) ∧
    (i = .init → t.rsp ≠ s.rsp ++ [.ok] → s.lifecycle = .openUninitialised → t.lifecycle = .openUninitialised) ∧
    (i = .init → t.rsp ≠ s.rsp ++ [.ok] → s.lifecycle = .ready → t.lifecycle = .openUninitialised) ∧
    (i = .init → t.rsp ≠ s.rsp ++ [.ok] → s.lifecycle = .closed →
      t.lifecycle = if t.trace = s.trace ++ [.openFail] then .closed else .openUninitialised)

/-! ### Laws of the trace -/

/-- 20_memory.md R71: every successful transmit of an operation is followed at once by a wait of T_DELAY. The bare frame
rows of the table are transmits without a wait (entry 11). -/
def Obligations.EveryTransmitIsFollowedByItsWait : Prop :=
  ∀ (i : Instr) (s t : State), exec i s = .next t → isBareFrame i = false →
    ∃ es, t.trace = s.trace ++ es ∧ paced s.cfg.tDelay es = true

/-- 30_encoding.md R94: no instruction ever transmits, or tries to, a byte with bit 1 set, but STROBE of such a frame. -/
def Obligations.RwIsNeverSet : Prop :=
  ∀ (i : Instr) (s t : State), exec i s = .next t → (∀ f, i = .strobe f → f.getLsbD 1 = false) →
    ∃ es, t.trace = s.trace ++ es ∧ ∀ b, .tx b ∈ es ∨ .txFail b ∈ es → b.getLsbD 1 = false

/-- R72 and 70_reset_and_hazards.md R260: the number of transmits and the minimum time of each operation that ends without
an error. -/
def Obligations.CountsAndMinimumTimes : Prop :=
  ∀ (i : Instr) (s t : State), exec i s = .next t → (∃ r, t.rsp = s.rsp ++ [r] ∧ ∀ e, r ≠ .err e) →
    ∃ es, t.trace = s.trace ++ es ∧
      match i with
      | .frame _ _ _ => es = []
      | .setbl _ => es = []
      | .close => es = if s.isOpen then [.closed] else []
      | .openBus => es = [.opened]
      | .strobe _ => countTx es = 2 ∧ minDuration es = 3 * s.cfg.tDelay
      | .initseq => countTx es = 36 ∧ minDuration es = 36 * s.cfg.tDelay + s.cfg.tSettleInit
      | .init => countTx es = 36 ∧ minDuration es = 36 * s.cfg.tDelay + s.cfg.tSettleInit ∧
          (s.isOpen = false → es.head? = some .opened) ∧ es.getLast? = some (.delay s.cfg.tSettleInit)
      | .print _ _ text =>
          if text = [] then es = []
          else countTx es = 6 * (text.length + 1) ∧ minDuration es = 6 * (text.length + 1) * s.cfg.tDelay
      | .frameCmdLo _ _ => countTx es = 1 ∧ minDuration es = 0
      | .frameCmdHi _ _ => countTx es = 1 ∧ minDuration es = 0
      | .frameDataLo _ _ => countTx es = 1 ∧ minDuration es = 0
      | .frameDataHi _ _ => countTx es = 1 ∧ minDuration es = 0
      | .write _ _ => countTx es = 6 ∧ minDuration es = 6 * s.cfg.tDelay
      | .clear => countTx es = 6 ∧ minDuration es = 6 * s.cfg.tDelay
      | .movecursor _ _ => countTx es = 6 ∧ minDuration es = 6 * s.cfg.tDelay
      | .ctrlResetA => countTx es = 6 ∧ minDuration es = 6 * s.cfg.tDelay
      | .ctrlResetB => countTx es = 6 ∧ minDuration es = 6 * s.cfg.tDelay
      | .ctrlEntryMode => countTx es = 6 ∧ minDuration es = 6 * s.cfg.tDelay
      | .ctrlDisplayOn => countTx es = 6 ∧ minDuration es = 6 * s.cfg.tDelay
      | .ctrlFunctionSet => countTx es = 6 ∧ minDuration es = 6 * s.cfg.tDelay
      | .ctrlClear => countTx es = 6 ∧ minDuration es = 6 * s.cfg.tDelay
      | .ctrlSetDdram _ => countTx es = 6 ∧ minDuration es = 6 * s.cfg.tDelay

/-- R69: the bus stream says what was written. If `bytes` reads the trace so far as l, then after an operation that ends
without an error it reads the trace as l followed by the (mode, value) of the WRITEs the operation performed, in order.
STROBE and the bare frame rows do not go through WRITE. -/
def Obligations.BytesOfTheTraceAreTheWrites : Prop :=
  ∀ (i : Instr) (s t : State) (l : List (Bool × Byte)), exec i s = .next t → isBareFrame i = false →
    (∀ f, i ≠ .strobe f) → (∃ r, t.rsp = s.rsp ++ [r] ∧ ∀ e, r ≠ .err e) → bytes s.trace = some l →
    bytes t.trace = some (l ++ logicalBytes s.cfg i)

/-- R70, R42, R165 and R245: after a WRITE the backlight line of the pin view shows the BL the WRITE was framed with,
enable and RW are low; after a WRITE one of whose six transmits failed no line is known; a SETBL alone changes no line. -/
def Obligations.BacklightLineFollowsTheLastFrame : Prop :=
  (∀ (v : Byte) (m : Mode) (s : State), s.seq = .idle → s.isOpen = true → s.writesOk 6 →
    ∃ t, exec (.write v m) s = .next t ∧
      pins t.trace = some ⟨v.extractLsb' 0 4, s.bl, false, false, decide (m = .data)⟩) ∧
  (∀ (v : Byte) (m : Mode) (s : State) (k : Nat) (d : Detail), s.seq = .idle → s.isOpen = true → k < 6 →
    s.writeFailsAt k d → ∃ t, exec (.write v m) s = .next t ∧ pins t.trace = none) ∧
  (∀ (on : Bool) (s t : State), exec (.setbl on) s = .next t → pins t.trace = pins s.trace ∧ t.bl = on)
end

