-- ==== Sys2Proof/Laws/Decode.lean ====
section
/-! SUPPORT. Small facts about the frame layout and the one-bit fields, cited instead of unfolding them. -/

namespace Sys2Proof

@[simp] theorem frameNibble_frameByte (d : Nibble) (bl e rs : Bool) : frameNibble (frameByte d bl e rs) = d := by
  revert d bl e rs; decide

@[simp] theorem frameBl_frameByte (d : Nibble) (bl e rs : Bool) : frameBl (frameByte d bl e rs) = bl := by
  revert d bl e rs; decide

@[simp] theorem frameE_frameByte (d : Nibble) (bl e rs : Bool) : frameE (frameByte d bl e rs) = e := by
  revert d bl e rs; decide

@[simp] theorem frameRw_frameByte (d : Nibble) (bl e rs : Bool) : frameRw (frameByte d bl e rs) = false := by
  revert d bl e rs; decide

@[simp] theorem frameRs_frameByte (d : Nibble) (bl e rs : Bool) : frameRs (frameByte d bl e rs) = rs := by
  revert d bl e rs; decide

@[simp] theorem Mode.ofBit_toBit (m : Mode) : Mode.ofBit m.toBit = m := by cases m <;> rfl

@[simp] theorem bitSet_ofBool (b : Bool) : bitSet (BitVec.ofBool b) = b := by cases b <;> rfl

end Sys2Proof
end

