-- ==== Sys2Proof/Laws/State.lean ====
section
/-! SUPPORT. One lemma per field per update of the state, each by `rfl`: no later proof unfolds a record update. -/

namespace Sys2Proof.Machine.State

variable (s : State)

/-! `setBl` -/
@[simp] theorem setBl_cfg (v : Bool) : (s.setBl v).cfg = s.cfg := rfl
@[simp] theorem setBl_bl (v : Bool) : (s.setBl v).bl = v := rfl
@[simp] theorem setBl_isOpen (v : Bool) : (s.setBl v).isOpen = s.isOpen := rfl
@[simp] theorem setBl_handle (v : Bool) : (s.setBl v).handle = s.handle := rfl
@[simp] theorem setBl_seq (v : Bool) : (s.setBl v).seq = s.seq := rfl
@[simp] theorem setBl_timer (v : Bool) : (s.setBl v).timer = s.timer := rfl
@[simp] theorem setBl_inited (v : Bool) : (s.setBl v).inited = s.inited := rfl
@[simp] theorem setBl_trace (v : Bool) : (s.setBl v).trace = s.trace := rfl
@[simp] theorem setBl_cmd (v : Bool) : (s.setBl v).cmd = s.cmd := rfl
@[simp] theorem setBl_rsp (v : Bool) : (s.setBl v).rsp = s.rsp := rfl
@[simp] theorem setBl_bus (v : Bool) : (s.setBl v).bus = s.bus := rfl
@[simp] theorem setBl_busOpens (v : Bool) : (s.setBl v).busOpens = s.busOpens := rfl
@[simp] theorem setBl_busWrites (v : Bool) : (s.setBl v).busWrites = s.busWrites := rfl
@[simp] theorem setBl_draws (v : Bool) : (s.setBl v).draws = s.draws := rfl

/-! `setOpen` -/
@[simp] theorem setOpen_cfg (v : Bool) : (s.setOpen v).cfg = s.cfg := rfl
@[simp] theorem setOpen_bl (v : Bool) : (s.setOpen v).bl = s.bl := rfl
@[simp] theorem setOpen_isOpen (v : Bool) : (s.setOpen v).isOpen = v := rfl
@[simp] theorem setOpen_handle (v : Bool) : (s.setOpen v).handle = s.handle := rfl
@[simp] theorem setOpen_seq (v : Bool) : (s.setOpen v).seq = s.seq := rfl
@[simp] theorem setOpen_timer (v : Bool) : (s.setOpen v).timer = s.timer := rfl
@[simp] theorem setOpen_inited (v : Bool) : (s.setOpen v).inited = s.inited := rfl
@[simp] theorem setOpen_trace (v : Bool) : (s.setOpen v).trace = s.trace := rfl
@[simp] theorem setOpen_cmd (v : Bool) : (s.setOpen v).cmd = s.cmd := rfl
@[simp] theorem setOpen_rsp (v : Bool) : (s.setOpen v).rsp = s.rsp := rfl
@[simp] theorem setOpen_bus (v : Bool) : (s.setOpen v).bus = s.bus := rfl
@[simp] theorem setOpen_busOpens (v : Bool) : (s.setOpen v).busOpens = s.busOpens := rfl
@[simp] theorem setOpen_busWrites (v : Bool) : (s.setOpen v).busWrites = s.busWrites := rfl
@[simp] theorem setOpen_draws (v : Bool) : (s.setOpen v).draws = s.draws := rfl

/-! `setHandle` -/
@[simp] theorem setHandle_cfg (h : Handle) : (s.setHandle h).cfg = s.cfg := rfl
@[simp] theorem setHandle_bl (h : Handle) : (s.setHandle h).bl = s.bl := rfl
@[simp] theorem setHandle_isOpen (h : Handle) : (s.setHandle h).isOpen = s.isOpen := rfl
@[simp] theorem setHandle_handle (h : Handle) : (s.setHandle h).handle = h := rfl
@[simp] theorem setHandle_seq (h : Handle) : (s.setHandle h).seq = s.seq := rfl
@[simp] theorem setHandle_timer (h : Handle) : (s.setHandle h).timer = s.timer := rfl
@[simp] theorem setHandle_inited (h : Handle) : (s.setHandle h).inited = s.inited := rfl
@[simp] theorem setHandle_trace (h : Handle) : (s.setHandle h).trace = s.trace := rfl
@[simp] theorem setHandle_cmd (h : Handle) : (s.setHandle h).cmd = s.cmd := rfl
@[simp] theorem setHandle_rsp (h : Handle) : (s.setHandle h).rsp = s.rsp := rfl
@[simp] theorem setHandle_bus (h : Handle) : (s.setHandle h).bus = s.bus := rfl
@[simp] theorem setHandle_busOpens (h : Handle) : (s.setHandle h).busOpens = s.busOpens := rfl
@[simp] theorem setHandle_busWrites (h : Handle) : (s.setHandle h).busWrites = s.busWrites := rfl
@[simp] theorem setHandle_draws (h : Handle) : (s.setHandle h).draws = s.draws := rfl

/-! `setInited` -/
@[simp] theorem setInited_cfg (v : Bool) : (s.setInited v).cfg = s.cfg := rfl
@[simp] theorem setInited_bl (v : Bool) : (s.setInited v).bl = s.bl := rfl
@[simp] theorem setInited_isOpen (v : Bool) : (s.setInited v).isOpen = s.isOpen := rfl
@[simp] theorem setInited_handle (v : Bool) : (s.setInited v).handle = s.handle := rfl
@[simp] theorem setInited_seq (v : Bool) : (s.setInited v).seq = s.seq := rfl
@[simp] theorem setInited_timer (v : Bool) : (s.setInited v).timer = s.timer := rfl
@[simp] theorem setInited_inited (v : Bool) : (s.setInited v).inited = v := rfl
@[simp] theorem setInited_trace (v : Bool) : (s.setInited v).trace = s.trace := rfl
@[simp] theorem setInited_cmd (v : Bool) : (s.setInited v).cmd = s.cmd := rfl
@[simp] theorem setInited_rsp (v : Bool) : (s.setInited v).rsp = s.rsp := rfl
@[simp] theorem setInited_bus (v : Bool) : (s.setInited v).bus = s.bus := rfl
@[simp] theorem setInited_busOpens (v : Bool) : (s.setInited v).busOpens = s.busOpens := rfl
@[simp] theorem setInited_busWrites (v : Bool) : (s.setInited v).busWrites = s.busWrites := rfl
@[simp] theorem setInited_draws (v : Bool) : (s.setInited v).draws = s.draws := rfl

/-! `setSeq` -/
@[simp] theorem setSeq_cfg (q : Seq) : (s.setSeq q).cfg = s.cfg := rfl
@[simp] theorem setSeq_bl (q : Seq) : (s.setSeq q).bl = s.bl := rfl
@[simp] theorem setSeq_isOpen (q : Seq) : (s.setSeq q).isOpen = s.isOpen := rfl
@[simp] theorem setSeq_handle (q : Seq) : (s.setSeq q).handle = s.handle := rfl
@[simp] theorem setSeq_seq (q : Seq) : (s.setSeq q).seq = q := rfl
@[simp] theorem setSeq_timer (q : Seq) : (s.setSeq q).timer = s.timer := rfl
@[simp] theorem setSeq_inited (q : Seq) : (s.setSeq q).inited = s.inited := rfl
@[simp] theorem setSeq_trace (q : Seq) : (s.setSeq q).trace = s.trace := rfl
@[simp] theorem setSeq_cmd (q : Seq) : (s.setSeq q).cmd = s.cmd := rfl
@[simp] theorem setSeq_rsp (q : Seq) : (s.setSeq q).rsp = s.rsp := rfl
@[simp] theorem setSeq_bus (q : Seq) : (s.setSeq q).bus = s.bus := rfl
@[simp] theorem setSeq_busOpens (q : Seq) : (s.setSeq q).busOpens = s.busOpens := rfl
@[simp] theorem setSeq_busWrites (q : Seq) : (s.setSeq q).busWrites = s.busWrites := rfl
@[simp] theorem setSeq_draws (q : Seq) : (s.setSeq q).draws = s.draws := rfl

/-! `setTimer` -/
@[simp] theorem setTimer_cfg (d : Duration) : (s.setTimer d).cfg = s.cfg := rfl
@[simp] theorem setTimer_bl (d : Duration) : (s.setTimer d).bl = s.bl := rfl
@[simp] theorem setTimer_isOpen (d : Duration) : (s.setTimer d).isOpen = s.isOpen := rfl
@[simp] theorem setTimer_handle (d : Duration) : (s.setTimer d).handle = s.handle := rfl
@[simp] theorem setTimer_seq (d : Duration) : (s.setTimer d).seq = s.seq := rfl
@[simp] theorem setTimer_timer (d : Duration) : (s.setTimer d).timer = d := rfl
@[simp] theorem setTimer_inited (d : Duration) : (s.setTimer d).inited = s.inited := rfl
@[simp] theorem setTimer_trace (d : Duration) : (s.setTimer d).trace = s.trace := rfl
@[simp] theorem setTimer_cmd (d : Duration) : (s.setTimer d).cmd = s.cmd := rfl
@[simp] theorem setTimer_rsp (d : Duration) : (s.setTimer d).rsp = s.rsp := rfl
@[simp] theorem setTimer_bus (d : Duration) : (s.setTimer d).bus = s.bus := rfl
@[simp] theorem setTimer_busOpens (d : Duration) : (s.setTimer d).busOpens = s.busOpens := rfl
@[simp] theorem setTimer_busWrites (d : Duration) : (s.setTimer d).busWrites = s.busWrites := rfl
@[simp] theorem setTimer_draws (d : Duration) : (s.setTimer d).draws = s.draws := rfl

/-! `record` -/
@[simp] theorem record_cfg (e : Event) : (s.record e).cfg = s.cfg := rfl
@[simp] theorem record_bl (e : Event) : (s.record e).bl = s.bl := rfl
@[simp] theorem record_isOpen (e : Event) : (s.record e).isOpen = s.isOpen := rfl
@[simp] theorem record_handle (e : Event) : (s.record e).handle = s.handle := rfl
@[simp] theorem record_seq (e : Event) : (s.record e).seq = s.seq := rfl
@[simp] theorem record_timer (e : Event) : (s.record e).timer = s.timer := rfl
@[simp] theorem record_inited (e : Event) : (s.record e).inited = s.inited := rfl
@[simp] theorem record_trace (e : Event) : (s.record e).trace = s.trace ++ [e] := rfl
@[simp] theorem record_cmd (e : Event) : (s.record e).cmd = s.cmd := rfl
@[simp] theorem record_rsp (e : Event) : (s.record e).rsp = s.rsp := rfl
@[simp] theorem record_bus (e : Event) : (s.record e).bus = s.bus := rfl
@[simp] theorem record_busOpens (e : Event) : (s.record e).busOpens = s.busOpens := rfl
@[simp] theorem record_busWrites (e : Event) : (s.record e).busWrites = s.busWrites := rfl
@[simp] theorem record_draws (e : Event) : (s.record e).draws = s.draws := rfl

/-! `respond` -/
@[simp] theorem respond_cfg (r : Response) : (s.respond r).cfg = s.cfg := rfl
@[simp] theorem respond_bl (r : Response) : (s.respond r).bl = s.bl := rfl
@[simp] theorem respond_isOpen (r : Response) : (s.respond r).isOpen = s.isOpen := rfl
@[simp] theorem respond_handle (r : Response) : (s.respond r).handle = s.handle := rfl
@[simp] theorem respond_seq (r : Response) : (s.respond r).seq = s.seq := rfl
@[simp] theorem respond_timer (r : Response) : (s.respond r).timer = s.timer := rfl
@[simp] theorem respond_inited (r : Response) : (s.respond r).inited = s.inited := rfl
@[simp] theorem respond_trace (r : Response) : (s.respond r).trace = s.trace := rfl
@[simp] theorem respond_cmd (r : Response) : (s.respond r).cmd = s.cmd := rfl
@[simp] theorem respond_rsp (r : Response) : (s.respond r).rsp = s.rsp ++ [r] := rfl
@[simp] theorem respond_bus (r : Response) : (s.respond r).bus = s.bus := rfl
@[simp] theorem respond_busOpens (r : Response) : (s.respond r).busOpens = s.busOpens := rfl
@[simp] theorem respond_busWrites (r : Response) : (s.respond r).busWrites = s.busWrites := rfl
@[simp] theorem respond_draws (r : Response) : (s.respond r).draws = s.draws := rfl

/-! `transact` -/
@[simp] theorem transact_cfg (t : BusTransaction) : (s.transact t).cfg = s.cfg := rfl
@[simp] theorem transact_bl (t : BusTransaction) : (s.transact t).bl = s.bl := rfl
@[simp] theorem transact_isOpen (t : BusTransaction) : (s.transact t).isOpen = s.isOpen := rfl
@[simp] theorem transact_handle (t : BusTransaction) : (s.transact t).handle = s.handle := rfl
@[simp] theorem transact_seq (t : BusTransaction) : (s.transact t).seq = s.seq := rfl
@[simp] theorem transact_timer (t : BusTransaction) : (s.transact t).timer = s.timer := rfl
@[simp] theorem transact_inited (t : BusTransaction) : (s.transact t).inited = s.inited := rfl
@[simp] theorem transact_trace (t : BusTransaction) : (s.transact t).trace = s.trace := rfl
@[simp] theorem transact_cmd (t : BusTransaction) : (s.transact t).cmd = s.cmd := rfl
@[simp] theorem transact_rsp (t : BusTransaction) : (s.transact t).rsp = s.rsp := rfl
@[simp] theorem transact_bus (t : BusTransaction) : (s.transact t).bus = s.bus ++ [t] := rfl
@[simp] theorem transact_busOpens (t : BusTransaction) : (s.transact t).busOpens = s.busOpens := rfl
@[simp] theorem transact_busWrites (t : BusTransaction) : (s.transact t).busWrites = s.busWrites := rfl
@[simp] theorem transact_draws (t : BusTransaction) : (s.transact t).draws = s.draws := rfl

/-! `setBusOpens` -/
@[simp] theorem setBusOpens_cfg (l : List OpenAnswer) : (s.setBusOpens l).cfg = s.cfg := rfl
@[simp] theorem setBusOpens_bl (l : List OpenAnswer) : (s.setBusOpens l).bl = s.bl := rfl
@[simp] theorem setBusOpens_isOpen (l : List OpenAnswer) : (s.setBusOpens l).isOpen = s.isOpen := rfl
@[simp] theorem setBusOpens_handle (l : List OpenAnswer) : (s.setBusOpens l).handle = s.handle := rfl
@[simp] theorem setBusOpens_seq (l : List OpenAnswer) : (s.setBusOpens l).seq = s.seq := rfl
@[simp] theorem setBusOpens_timer (l : List OpenAnswer) : (s.setBusOpens l).timer = s.timer := rfl
@[simp] theorem setBusOpens_inited (l : List OpenAnswer) : (s.setBusOpens l).inited = s.inited := rfl
@[simp] theorem setBusOpens_trace (l : List OpenAnswer) : (s.setBusOpens l).trace = s.trace := rfl
@[simp] theorem setBusOpens_cmd (l : List OpenAnswer) : (s.setBusOpens l).cmd = s.cmd := rfl
@[simp] theorem setBusOpens_rsp (l : List OpenAnswer) : (s.setBusOpens l).rsp = s.rsp := rfl
@[simp] theorem setBusOpens_bus (l : List OpenAnswer) : (s.setBusOpens l).bus = s.bus := rfl
@[simp] theorem setBusOpens_busOpens (l : List OpenAnswer) : (s.setBusOpens l).busOpens = l := rfl
@[simp] theorem setBusOpens_busWrites (l : List OpenAnswer) : (s.setBusOpens l).busWrites = s.busWrites := rfl
@[simp] theorem setBusOpens_draws (l : List OpenAnswer) : (s.setBusOpens l).draws = s.draws := rfl

/-! `setBusWrites` -/
@[simp] theorem setBusWrites_cfg (l : List WriteAnswer) : (s.setBusWrites l).cfg = s.cfg := rfl
@[simp] theorem setBusWrites_bl (l : List WriteAnswer) : (s.setBusWrites l).bl = s.bl := rfl
@[simp] theorem setBusWrites_isOpen (l : List WriteAnswer) : (s.setBusWrites l).isOpen = s.isOpen := rfl
@[simp] theorem setBusWrites_handle (l : List WriteAnswer) : (s.setBusWrites l).handle = s.handle := rfl
@[simp] theorem setBusWrites_seq (l : List WriteAnswer) : (s.setBusWrites l).seq = s.seq := rfl
@[simp] theorem setBusWrites_timer (l : List WriteAnswer) : (s.setBusWrites l).timer = s.timer := rfl
@[simp] theorem setBusWrites_inited (l : List WriteAnswer) : (s.setBusWrites l).inited = s.inited := rfl
@[simp] theorem setBusWrites_trace (l : List WriteAnswer) : (s.setBusWrites l).trace = s.trace := rfl
@[simp] theorem setBusWrites_cmd (l : List WriteAnswer) : (s.setBusWrites l).cmd = s.cmd := rfl
@[simp] theorem setBusWrites_rsp (l : List WriteAnswer) : (s.setBusWrites l).rsp = s.rsp := rfl
@[simp] theorem setBusWrites_bus (l : List WriteAnswer) : (s.setBusWrites l).bus = s.bus := rfl
@[simp] theorem setBusWrites_busOpens (l : List WriteAnswer) : (s.setBusWrites l).busOpens = s.busOpens := rfl
@[simp] theorem setBusWrites_busWrites (l : List WriteAnswer) : (s.setBusWrites l).busWrites = l := rfl
@[simp] theorem setBusWrites_draws (l : List WriteAnswer) : (s.setBusWrites l).draws = s.draws := rfl

/-! `setCmd` -/
@[simp] theorem setCmd_cfg (l : List Request) : (s.setCmd l).cfg = s.cfg := rfl
@[simp] theorem setCmd_bl (l : List Request) : (s.setCmd l).bl = s.bl := rfl
@[simp] theorem setCmd_isOpen (l : List Request) : (s.setCmd l).isOpen = s.isOpen := rfl
@[simp] theorem setCmd_handle (l : List Request) : (s.setCmd l).handle = s.handle := rfl
@[simp] theorem setCmd_seq (l : List Request) : (s.setCmd l).seq = s.seq := rfl
@[simp] theorem setCmd_timer (l : List Request) : (s.setCmd l).timer = s.timer := rfl
@[simp] theorem setCmd_inited (l : List Request) : (s.setCmd l).inited = s.inited := rfl
@[simp] theorem setCmd_trace (l : List Request) : (s.setCmd l).trace = s.trace := rfl
@[simp] theorem setCmd_cmd (l : List Request) : (s.setCmd l).cmd = l := rfl
@[simp] theorem setCmd_rsp (l : List Request) : (s.setCmd l).rsp = s.rsp := rfl
@[simp] theorem setCmd_bus (l : List Request) : (s.setCmd l).bus = s.bus := rfl
@[simp] theorem setCmd_busOpens (l : List Request) : (s.setCmd l).busOpens = s.busOpens := rfl
@[simp] theorem setCmd_busWrites (l : List Request) : (s.setCmd l).busWrites = s.busWrites := rfl
@[simp] theorem setCmd_draws (l : List Request) : (s.setCmd l).draws = s.draws := rfl

/-! `dropHandle` -/
@[simp] theorem dropHandle_cfg : (s.dropHandle).cfg = s.cfg := rfl
@[simp] theorem dropHandle_bl : (s.dropHandle).bl = s.bl := rfl
@[simp] theorem dropHandle_isOpen : (s.dropHandle).isOpen = s.isOpen := rfl
@[simp] theorem dropHandle_handle : (s.dropHandle).handle = Config.freeHandle s.draws := rfl
@[simp] theorem dropHandle_seq : (s.dropHandle).seq = s.seq := rfl
@[simp] theorem dropHandle_timer : (s.dropHandle).timer = s.timer := rfl
@[simp] theorem dropHandle_inited : (s.dropHandle).inited = s.inited := rfl
@[simp] theorem dropHandle_trace : (s.dropHandle).trace = s.trace := rfl
@[simp] theorem dropHandle_cmd : (s.dropHandle).cmd = s.cmd := rfl
@[simp] theorem dropHandle_rsp : (s.dropHandle).rsp = s.rsp := rfl
@[simp] theorem dropHandle_bus : (s.dropHandle).bus = s.bus := rfl
@[simp] theorem dropHandle_busOpens : (s.dropHandle).busOpens = s.busOpens := rfl
@[simp] theorem dropHandle_busWrites : (s.dropHandle).busWrites = s.busWrites := rfl
@[simp] theorem dropHandle_draws : (s.dropHandle).draws = s.draws + 1 := rfl

end Sys2Proof.Machine.State
end

