-- ==== Sys2Proof/Laws/Ops.lean ====
section
/-! SUPPORT. What the shared operations over the state do: one lemma for each way a micro-operation can go, the run of a
step list along them, and what a run can change. Provers cite these instead of unfolding `micro` and `runSeq`. -/

namespace Sys2Proof.Machine

variable {s : State} {r : Response} {ms : List MicroOp}

/-! ### One micro-operation at the head of a step list -/

@[simp] theorem runSeq_nil : runSeq [] r s = finish r s := rfl

@[simp] theorem runSeq_wait {d : Duration} : runSeq (.wait d :: ms) r s = runSeq ms r (waitFor d s) := rfl

@[simp] theorem runSeq_setBL {v : Bool} : runSeq (.setBL v :: ms) r s = runSeq ms r (s.setBl v) := rfl

@[simp] theorem runSeq_setOPEN {v : Bool} : runSeq (.setOPEN v :: ms) r s = runSeq ms r (s.setOpen v) := rfl

@[simp] theorem runSeq_setINITED {v : Bool} :
    runSeq (.setINITED v :: ms) r s = runSeq ms r (s.setInited v) := rfl

@[simp] theorem runSeq_busClose : runSeq (.busClose :: ms) r s = runSeq ms r (busClose s) := rfl

@[simp] theorem runSeq_dropHandle : runSeq (.dropHandle :: ms) r s = runSeq ms r s.dropHandle := rfl

theorem runSeq_busWrite_ok {b : Byte} {rest : List WriteAnswer} (h : s.busWrites = .ok :: rest) :
    runSeq (.busWrite b :: ms) r s
      = runSeq ms r (((s.setBusWrites rest).transact (.wrote s.handle b .ok)).record (.tx b)) := by
  simp [runSeq, micro, busWrite, h]

theorem runSeq_busWrite_error {b : Byte} {d : Detail} {rest : List WriteAnswer}
    (h : s.busWrites = .error d :: rest) :
    runSeq (.busWrite b :: ms) r s
      = raise (.transportError d)
          (((s.setBusWrites rest).transact (.wrote s.handle b (.error d))).record (.txFail b)) := by
  simp [runSeq, micro, busWrite, h]

theorem runSeq_busWrite_unanswered {b : Byte} (h : s.busWrites = []) :
    runSeq (.busWrite b :: ms) r s = s.setSeq (.busy (.busWrite b :: ms) r) := by
  simp [runSeq, micro, busWrite, h]

theorem runSeq_busOpen_handle {id : BusId} {addr : BusAddr} {h : Handle} {rest : List OpenAnswer}
    (hb : s.busOpens = .handle h :: rest) :
    runSeq (.busOpen id addr :: ms) r s
      = runSeq ms r
          ((((s.setBusOpens rest).transact (.opened id addr (.handle h))).setHandle h).record .opened) := by
  simp [runSeq, micro, busOpen, hb]

theorem runSeq_busOpen_error {id : BusId} {addr : BusAddr} {d : Detail} {rest : List OpenAnswer}
    (hb : s.busOpens = .error d :: rest) :
    runSeq (.busOpen id addr :: ms) r s
      = raise (.transportError d)
          (((s.setBusOpens rest).transact (.opened id addr (.error d))).record .openFail) := by
  simp [runSeq, micro, busOpen, hb]

theorem runSeq_busOpen_unanswered {id : BusId} {addr : BusAddr} (hb : s.busOpens = []) :
    runSeq (.busOpen id addr :: ms) r s = s.setSeq (.busy (.busOpen id addr :: ms) r) := by
  simp [runSeq, micro, busOpen, hb]

/-! ### What one micro-operation can come to -/

/-- Everything `micro` can do, by case (R14, R27, R52). -/
theorem micro_cases (m : MicroOp) (s : State) :
    (∃ id addr h rest, m = .busOpen id addr ∧ s.busOpens = .handle h :: rest ∧
      micro m s = .done ((((s.setBusOpens rest).transact (.opened id addr (.handle h))).setHandle h).record .opened)) ∨
    (∃ id addr d rest, m = .busOpen id addr ∧ s.busOpens = .error d :: rest ∧
      micro m s = .raised (.transportError d)
        (((s.setBusOpens rest).transact (.opened id addr (.error d))).record .openFail)) ∨
    (∃ id addr, m = .busOpen id addr ∧ s.busOpens = [] ∧ micro m s = .unanswered) ∨
    (∃ b rest, m = .busWrite b ∧ s.busWrites = .ok :: rest ∧
      micro m s = .done (((s.setBusWrites rest).transact (.wrote s.handle b .ok)).record (.tx b))) ∨
    (∃ b d rest, m = .busWrite b ∧ s.busWrites = .error d :: rest ∧
      micro m s = .raised (.transportError d)
        (((s.setBusWrites rest).transact (.wrote s.handle b (.error d))).record (.txFail b))) ∨
    (∃ b, m = .busWrite b ∧ s.busWrites = [] ∧ micro m s = .unanswered) ∨
    (∃ d, m = .wait d ∧ micro m s = .done (waitFor d s)) ∨
    (m = .busClose ∧ micro m s = .done (busClose s)) ∨
    (∃ v, m = .setBL v ∧ micro m s = .done (s.setBl v)) ∨
    (∃ v, m = .setOPEN v ∧ micro m s = .done (s.setOpen v)) ∨
    (∃ v, m = .setINITED v ∧ micro m s = .done (s.setInited v)) ∨
    (m = .dropHandle ∧ micro m s = .done s.dropHandle) := by
  cases m with
  | busOpen id addr =>
    rcases h : s.busOpens with _ | ⟨_ | _, _⟩ <;> simp [micro, busOpen, h]
  | busWrite b =>
    rcases h : s.busWrites with _ | ⟨_ | _, _⟩ <;> simp [micro, busWrite, h]
  | _ => simp [micro]

/-- Only a request to the transport can raise an error or stay unanswered (R52, R54). -/
theorem micro_done_of_not_request {m : MicroOp} (h : m.isRequest = false) (s : State) :
    ∃ t, micro m s = .done t := by
  cases m <;> simp_all [MicroOp.isRequest, micro]

/-! ### A run of a step list -/

/-- The shape of every invariant proof over a run: what holds of the pair (step list left, state) and is kept by each
micro-operation holds where the run ends, is aborted, or waits. -/
theorem runSeq_rule {P : List MicroOp → State → Prop} {Q : State → Prop}
    (hdone : ∀ m ms s t, P (m :: ms) s → micro m s = .done t → P ms t)
    (hraised : ∀ m ms s t e, P (m :: ms) s → micro m s = .raised e t → Q (raise e t))
    (hwait : ∀ m ms s, P (m :: ms) s → micro m s = .unanswered → Q (s.setSeq (.busy (m :: ms) r)))
    (hend : ∀ s, P [] s → Q (finish r s)) :
    ∀ (todo : List MicroOp) (s : State), P todo s → Q (runSeq todo r s)
  | [], s, h => hend s h
  | m :: ms, s, h => by
    unfold runSeq
    split
    · next t ht => exact runSeq_rule hdone hraised hwait hend ms t (hdone m ms s t h ht)
    · next e t ht => exact hraised m ms s t e h ht
    · next ht => exact hwait m ms s h ht

/-- A run writes neither the configuration nor the CMD channel. -/
theorem runSeq_cfg_cmd (todo : List MicroOp) (r : Response) (s : State) :
    (runSeq todo r s).cfg = s.cfg ∧ (runSeq todo r s).cmd = s.cmd := by
  refine runSeq_rule (P := fun _ t => t.cfg = s.cfg ∧ t.cmd = s.cmd)
    (Q := fun t => t.cfg = s.cfg ∧ t.cmd = s.cmd) ?_ ?_ ?_ ?_ todo s ⟨rfl, rfl⟩
  · intro m ms u t hu ht
    rcases micro_cases m u with ⟨_, _, _, _, -, -, h⟩ | ⟨_, _, _, _, -, -, h⟩ | ⟨_, _, -, -, h⟩ | ⟨_, _, -, -, h⟩ |
      ⟨_, _, _, -, -, h⟩ | ⟨_, -, -, h⟩ | ⟨_, -, h⟩ | ⟨-, h⟩ | ⟨_, -, h⟩ | ⟨_, -, h⟩ | ⟨_, -, h⟩ | ⟨-, h⟩ <;>
      (rw [h] at ht; cases ht <;> exact hu)
  · intro m ms u t e hu ht
    rcases micro_cases m u with ⟨_, _, _, _, -, -, h⟩ | ⟨_, _, _, _, -, -, h⟩ | ⟨_, _, -, -, h⟩ | ⟨_, _, -, -, h⟩ |
      ⟨_, _, _, -, -, h⟩ | ⟨_, -, -, h⟩ | ⟨_, -, h⟩ | ⟨-, h⟩ | ⟨_, -, h⟩ | ⟨_, -, h⟩ | ⟨_, -, h⟩ | ⟨-, h⟩ <;>
      (rw [h] at ht; cases ht <;> exact hu)
  · intro m ms u hu _
    exact hu
  · intro u hu
    exact hu

/-! ### What a run leaves, said once -/

/-- The event of a micro-operation that succeeds (R51). -/
def okEvents : MicroOp → List Event
  | .busOpen _ _ => [.opened]
  | .busWrite b => [.tx b]
  | .wait d => [.delay d]
  | .busClose => [.closed]
  | .setBL _ => []
  | .setOPEN _ => []
  | .setINITED _ => []
  | .dropHandle => []

/-- The event of a request that is answered with an error (R51). -/
def failEvent : MicroOp → Event
  | .busOpen _ _ => .openFail
  | .busWrite b => .txFail b
  | .wait d => .delay d
  | .busClose => .closed
  | .setBL _ => .closed
  | .setOPEN _ => .closed
  | .setINITED _ => .closed
  | .dropHandle => .closed

/-- The control bits BL, OPEN and INITED. -/
structure Ctl where
  bl     : Bool
  isOpen : Bool
  inited : Bool
deriving DecidableEq, Repr

/-- The control bits of a state. -/
def State.ctl (s : State) : Ctl := ⟨s.bl, s.isOpen, s.inited⟩

/-- The control bits after a micro-operation that succeeds. -/
def MicroOp.ctl (c : Ctl) : MicroOp → Ctl
  | .busOpen _ _ => c
  | .busWrite _ => c
  | .wait _ => c
  | .busClose => c
  | .setBL v => { c with bl := v }
  | .setOPEN v => { c with isOpen := v }
  | .setINITED v => { c with inited := v }
  | .dropHandle => c

/-- The control bits after a list of them. -/
def ctlAfter (c : Ctl) (ms : List MicroOp) : Ctl := ms.foldl MicroOp.ctl c

/-- How a run of `todo` from `s` can leave `t`: it ended with its result, it was aborted at a request that the transport
answered with an error, or it waits at a request that the transport has not answered. The micro-operations before have
left their events and written the control bits. -/
inductive Ran (todo : List MicroOp) (r : Response) (s t : State) : Prop where
  | ended (hseq : t.seq = .idle) (hrsp : t.rsp = s.rsp ++ [r])
      (htrace : t.trace = s.trace ++ todo.flatMap okEvents) (hctl : t.ctl = ctlAfter s.ctl todo)
  | aborted (pre : List MicroOp) (m : MicroOp) (post : List MicroOp) (d : Detail) (htodo : todo = pre ++ m :: post)
      (hm : m.isRequest = true) (hseq : t.seq = .idle) (hrsp : t.rsp = s.rsp ++ [.err (.transportError d)])
      (htrace : t.trace = s.trace ++ (pre.flatMap okEvents ++ [failEvent m]))
      (hctl : t.ctl = ctlAfter s.ctl pre)
  | waiting (pre : List MicroOp) (m : MicroOp) (post : List MicroOp) (htodo : todo = pre ++ m :: post)
      (hm : m.isRequest = true) (hseq : t.seq = .busy (m :: post) r) (hrsp : t.rsp = s.rsp)
      (htrace : t.trace = s.trace ++ pre.flatMap okEvents) (hctl : t.ctl = ctlAfter s.ctl pre)
      (hopen : ∀ id addr, m = .busOpen id addr → t.busOpens = [])
      (hwrite : ∀ b, m = .busWrite b → t.busWrites = [])

/-- A micro-operation that succeeds leaves its event and its control bits, and no RSP transaction. -/
theorem micro_done_effect {m : MicroOp} {s t : State} (h : micro m s = .done t) :
    t.trace = s.trace ++ okEvents m ∧ t.ctl = m.ctl s.ctl ∧ t.rsp = s.rsp := by
  rcases micro_cases m s with ⟨_, _, _, _, rfl, -, e⟩ | ⟨_, _, _, _, rfl, -, e⟩ | ⟨_, _, rfl, -, e⟩ |
    ⟨_, _, rfl, -, e⟩ | ⟨_, _, _, rfl, -, e⟩ | ⟨_, rfl, -, e⟩ | ⟨_, rfl, e⟩ | ⟨rfl, e⟩ | ⟨_, rfl, e⟩ | ⟨_, rfl, e⟩ |
    ⟨_, rfl, e⟩ | ⟨rfl, e⟩ <;>
    (rw [e] at h; cases h <;>
      simp [okEvents, MicroOp.ctl, State.ctl, waitFor, loadTimer, expireTimer, busClose])

/-- A micro-operation that raises an error is a request; it leaves its fail event and writes no control bit. -/
theorem micro_raised_effect {m : MicroOp} {s t : State} {e : Err} (h : micro m s = .raised e t) :
    m.isRequest = true ∧ (∃ d, e = .transportError d) ∧ t.trace = s.trace ++ [failEvent m] ∧ t.ctl = s.ctl ∧
      t.rsp = s.rsp := by
  rcases micro_cases m s with ⟨_, _, _, _, rfl, -, e⟩ | ⟨_, _, _, _, rfl, -, e⟩ | ⟨_, _, rfl, -, e⟩ |
    ⟨_, _, rfl, -, e⟩ | ⟨_, _, _, rfl, -, e⟩ | ⟨_, rfl, -, e⟩ | ⟨_, rfl, e⟩ | ⟨rfl, e⟩ | ⟨_, rfl, e⟩ | ⟨_, rfl, e⟩ |
    ⟨_, rfl, e⟩ | ⟨rfl, e⟩ <;>
    (rw [e] at h; cases h <;> simp [failEvent, MicroOp.isRequest, State.ctl])

/-- A micro-operation that stays unanswered is a request with no answer left. -/
theorem micro_unanswered_effect {m : MicroOp} {s : State} (h : micro m s = .unanswered) :
    m.isRequest = true ∧ (∀ id addr, m = .busOpen id addr → s.busOpens = []) ∧
      (∀ b, m = .busWrite b → s.busWrites = []) := by
  rcases micro_cases m s with ⟨_, _, _, _, rfl, -, e⟩ | ⟨_, _, _, _, rfl, -, e⟩ | ⟨_, _, rfl, hb, e⟩ |
    ⟨_, _, rfl, -, e⟩ | ⟨_, _, _, rfl, -, e⟩ | ⟨_, rfl, hb, e⟩ | ⟨_, rfl, e⟩ | ⟨rfl, e⟩ | ⟨_, rfl, e⟩ | ⟨_, rfl, e⟩ |
    ⟨_, rfl, e⟩ | ⟨rfl, e⟩ <;>
    (rw [e] at h; cases h <;> simp [MicroOp.isRequest, hb])

/-- Every run of a step list is one of the three of `Ran`. -/
theorem ran_runSeq (todo : List MicroOp) (r : Response) (s : State) : Ran todo r s (runSeq todo r s) := by
  induction todo generalizing s with
  | nil => exact .ended rfl (by simp [finish]) (by simp [finish]) rfl
  | cons m ms ih =>
    rcases hm : micro m s with u | ⟨e, u⟩ | _
    · have hr : runSeq (m :: ms) r s = runSeq ms r u := by simp [runSeq, hm]
      rw [hr]
      obtain ⟨htr, hctl, hrsp⟩ := micro_done_effect hm
      cases ih u with
      | ended h1 h2 h3 h4 =>
        exact .ended h1 (by rw [h2, hrsp]) (by rw [h3, htr]; simp) (by rw [h4, hctl]; rfl)
      | aborted pre m' post d h1 h2 h3 h4 h5 h6 =>
        exact .aborted (m :: pre) m' post d (by simp [h1]) h2 h3 (by rw [h4, hrsp]) (by rw [h5, htr]; simp)
          (by rw [h6, hctl]; rfl)
      | waiting pre m' post h1 h2 h3 h4 h5 h6 h7 h8 =>
        exact .waiting (m :: pre) m' post (by simp [h1]) h2 h3 (by rw [h4, hrsp]) (by rw [h5, htr]; simp)
          (by rw [h6, hctl]; rfl) h7 h8
    · have hr : runSeq (m :: ms) r s = raise e u := by simp [runSeq, hm]
      rw [hr]
      obtain ⟨hq, ⟨d, rfl⟩, htr, hctl, hrsp⟩ := micro_raised_effect hm
      exact .aborted [] m ms d rfl hq rfl (by simp [raise, finish, hrsp]) (by simp [raise, finish, htr])
        (by simpa [raise, finish, State.ctl, ctlAfter] using hctl)
    · have hr : runSeq (m :: ms) r s = s.setSeq (.busy (m :: ms) r) := by simp [runSeq, hm]
      rw [hr]
      obtain ⟨hq, ho, hw⟩ := micro_unanswered_effect hm
      exact .waiting [] m ms rfl hq rfl rfl (by simp) rfl ho hw

end Sys2Proof.Machine
end

