-- ==== Sys2Proof/Laws/Steps.lean ====
section
/-! SUPPORT. The step lists as runs of transmits, each followed by its wait (20_memory.md R71), and what such a run does for
every script of answers: all `Ok`, the first error at the k-th, or no answer at the k-th. -/

namespace Sys2Proof.Machine

/-- Transmit each byte and wait after it. -/
def sendSteps (d : Duration) (bs : List Byte) : List MicroOp := bs.flatMap (fun b => [.busWrite b, .wait d])

@[simp] theorem sendSteps_nil (d : Duration) : sendSteps d [] = [] := rfl

@[simp] theorem sendSteps_cons (d : Duration) (b : Byte) (bs : List Byte) :
    sendSteps d (b :: bs) = .busWrite b :: .wait d :: sendSteps d bs := rfl

theorem sendSteps_append (d : Duration) (as bs : List Byte) :
    sendSteps d (as ++ bs) = sendSteps d as ++ sendSteps d bs := by simp [sendSteps]

/-- The frames of FRAME have enable clear, so clearing it gives them back (40_framer.md R112, 30_encoding.md R87). -/
theorem enableClear_highFrame (v : Byte) (m : Mode) (on : Bool) : enableClear (highFrame v m on) = highFrame v m on := by
  cases m <;> cases on <;> revert v <;> decide

theorem enableClear_lowFrame (v : Byte) (m : Mode) (on : Bool) : enableClear (lowFrame v m on) = lowFrame v m on := by
  cases m <;> cases on <;> revert v <;> decide

/-- WRITE is a run of its six bytes (42_bytewriter.md R131). -/
theorem writeSteps_eq_sendSteps (d : Duration) (bl : Bool) (v : Byte) (m : Mode) :
    writeSteps d bl v m = sendSteps d (sixBytes v m bl) := by
  simp [writeSteps, nibbleSteps, strobeSteps, sixBytes, enableClear_highFrame, enableClear_lowFrame, enableSet, enBit]

/-- The text is a run of the six bytes of each character. -/
theorem textSteps_eq_sendSteps (d : Duration) (bl : Bool) (text : List Byte) :
    textSteps d bl text = sendSteps d (text.flatMap (fun ch => sixBytes ch .data bl)) := by
  simp only [textSteps, writeSteps_eq_sendSteps, sendSteps, List.flatMap_assoc]

/-- The six commands of INIT_SEQ with backlight 1 are the 36 bytes of 43_initializer.md R141. -/
theorem initSeq_sixBytes : initSeq.flatMap (fun b => sixBytes b .command true) = init36 := by decide

theorem initseqSteps_eq (c : Config) :
    initseqSteps c = .setINITED false :: .setBL true ::
      (sendSteps c.tDelay init36 ++ [.wait c.tSettleInit, .setINITED true]) := by
  rw [← initSeq_sixBytes]
  simp only [initseqSteps, writeSteps_eq_sendSteps, sendSteps, List.flatMap_assoc]
  rfl

@[simp] theorem sixBytes_length (v : Byte) (m : Mode) (bl : Bool) : (sixBytes v m bl).length = 6 := rfl

@[simp] theorem init36_length : init36.length = 36 := rfl

theorem textBytes_length (bl : Bool) (text : List Byte) :
    (text.flatMap (fun ch => sixBytes ch .data bl)).length = 6 * text.length := by
  induction text with
  | nil => rfl
  | cons c cs ih => rw [List.flatMap_cons, List.length_append, ih, sixBytes_length, List.length_cons]; omega

/-! ### A run of transmits -/

/-- The answers to n writes: all `Ok`, an error at the k-th after `Ok`s, or no more answers after k `Ok`s (R52, R53). -/
theorem writeAnswers_cases (n : Nat) (l : List WriteAnswer) :
    (∃ rest, l = List.replicate n .ok ++ rest) ∨
    (∃ k d rest, k < n ∧ l = List.replicate k .ok ++ .error d :: rest) ∨
    (∃ k, k < n ∧ l = List.replicate k .ok) := by
  induction n generalizing l with
  | zero => exact .inl ⟨l, rfl⟩
  | succ n ih =>
    rcases l with _ | ⟨_ | d, l⟩
    · exact .inr (.inr ⟨0, by omega, rfl⟩)
    · rcases ih l with ⟨rest, rfl⟩ | ⟨k, d, rest, hk, rfl⟩ | ⟨k, hk, rfl⟩
      · exact .inl ⟨rest, rfl⟩
      · exact .inr (.inl ⟨k + 1, d, rest, by omega, rfl⟩)
      · exact .inr (.inr ⟨k + 1, by omega, rfl⟩)
    · exact .inr (.inl ⟨0, d, l, by omega, rfl⟩)

/-- The timer after a run of waits: 0, or what it was if there was none. -/
def timerAfter (bs : List Byte) (t : Duration) : Duration := if bs = [] then t else 0

/-- One transmit answered `Ok` and its wait. -/
theorem runSeq_send_one {s : State} {b : Byte} {rest : List WriteAnswer} {ms : List MicroOp} {r : Response}
    (h : s.busWrites = .ok :: rest) :
    runSeq (.busWrite b :: .wait s.cfg.tDelay :: ms) r s
      = runSeq ms r { s.afterSent [b] with timer := 0 } := by
  rw [runSeq_busWrite_ok h, runSeq_wait]
  congr 1
  cases s
  simp_all [waitFor, loadTimer, expireTimer, State.afterSent, pacedTx, State.setTimer, State.record, State.transact,
    State.setBusWrites]

theorem afterSent_cons (s : State) (b : Byte) (bs : List Byte) :
    s.afterSent (b :: bs) = (s.afterSent [b]).afterSent bs := by
  simp [State.afterSent, pacedTx, Nat.add_comm]

/-- A run whose transmits are all answered `Ok`. -/
theorem runSeq_send_ok (bs : List Byte) {s : State} {rest : List WriteAnswer} {ms : List MicroOp} {r : Response}
    (h : s.busWrites = List.replicate bs.length .ok ++ rest) :
    runSeq (sendSteps s.cfg.tDelay bs ++ ms) r s
      = runSeq ms r { s.afterSent bs with timer := timerAfter bs s.timer } := by
  induction bs generalizing s with
  | nil => simp [State.afterSent, pacedTx, timerAfter]
  | cons b bs ih =>
    have h' : s.busWrites = .ok :: (List.replicate bs.length .ok ++ rest) := by
      simpa [List.replicate_succ] using h
    rw [sendSteps_cons, List.cons_append, List.cons_append, runSeq_send_one h']
    have := @ih { s.afterSent [b] with timer := 0 } (by simp [State.afterSent, h'])
    rw [afterSent_cons s b bs]
    refine Eq.trans this ?_
    congr 1
    cases bs <;> simp [State.afterSent, timerAfter]

/-- A run whose k-th transmit (from 0) is answered with an error. -/
theorem runSeq_send_error (bs : List Byte) {s : State} {k : Nat} {d : Detail} {rest : List WriteAnswer}
    {ms : List MicroOp} {r : Response} (hk : k < bs.length)
    (h : s.busWrites = List.replicate k .ok ++ .error d :: rest) :
    runSeq (sendSteps s.cfg.tDelay bs ++ ms) r s
      = raise (.transportError d)
          { (s.afterSent (bs.take k)).afterFailed (bs.getD k 0) d with timer := if k = 0 then s.timer else 0 } := by
  induction bs generalizing s k with
  | nil => simp at hk
  | cons b bs ih =>
    cases k with
    | zero =>
      rw [sendSteps_cons, List.cons_append, runSeq_busWrite_error (rest := rest) (by simpa using h)]
      congr 1
      cases s
      simp_all [State.afterSent, State.afterFailed, pacedTx, State.record, State.transact, State.setBusWrites]
    | succ k =>
      have h' : s.busWrites = .ok :: (List.replicate k .ok ++ .error d :: rest) := by
        simpa [List.replicate_succ] using h
      rw [sendSteps_cons, List.cons_append, List.cons_append, runSeq_send_one h']
      have := @ih { s.afterSent [b] with timer := 0 } k (by simpa using hk) (by simp [State.afterSent, h'])
      refine Eq.trans this ?_
      congr 1
      rw [List.take_succ_cons, afterSent_cons s b (bs.take k)]
      simp [State.afterSent, State.afterFailed]

/-- A run whose k-th transmit (from 0) is not answered: it waits there (R53). -/
theorem runSeq_send_unanswered (bs : List Byte) {s : State} {k : Nat} {ms : List MicroOp} {r : Response}
    (hk : k < bs.length) (h : s.busWrites = List.replicate k .ok) :
    runSeq (sendSteps s.cfg.tDelay bs ++ ms) r s
      = { s.afterSent (bs.take k) with
          timer := if k = 0 then s.timer else 0
          seq := .busy (sendSteps s.cfg.tDelay (bs.drop k) ++ ms) r } := by
  induction bs generalizing s k with
  | nil => simp at hk
  | cons b bs ih =>
    cases k with
    | zero =>
      have h' : s.busWrites = [] := by simpa using h
      rw [sendSteps_cons, List.cons_append, runSeq_busWrite_unanswered h']
      cases s
      simp_all [State.afterSent, pacedTx, State.setSeq]
    | succ k =>
      have h' : s.busWrites = .ok :: List.replicate k .ok := by simpa [List.replicate_succ] using h
      rw [sendSteps_cons, List.cons_append, List.cons_append, runSeq_send_one h']
      have := @ih { s.afterSent [b] with timer := 0 } k (by simpa using hk) (by simp [State.afterSent, h'])
      refine Eq.trans this ?_
      rw [List.take_succ_cons, afterSent_cons s b (bs.take k)]
      simp [State.afterSent]

/-! ### The invariant's condition on step lists -/

theorem stepsOk_sendSteps (d : Duration) (bs : List Byte) (i : Bool) (ms : List MicroOp) :
    stepsOk true i (sendSteps d bs ++ ms) = stepsOk true i ms := by
  induction bs with
  | nil => rfl
  | cons b bs ih => simpa [stepsOk] using ih

end Sys2Proof.Machine
end

