-- ==== Sys2Proof/Laws/Exec.lean ====
section
/-! SUPPORT. What exec can do, said once for all instructions: it refuses, or it runs the instruction's plan, which is an
error raised by its checks or a step list. -/

namespace Sys2Proof.Machine

/-- The checks and the step list of an instruction in a state. -/
def plan : Instr → State → Except Err (List MicroOp)
  | .frameCmdLo d b, _ => .ok [.busWrite (frameByte d b false false)]
  | .frameCmdHi d b, _ => .ok [.busWrite (frameByte d b true false)]
  | .frameDataLo d b, _ => .ok [.busWrite (frameByte d b false true)]
  | .frameDataHi d b, _ => .ok [.busWrite (frameByte d b true true)]
  | .ctrlResetA, s => .ok (sendSteps s.cfg.tDelay (sixBytes 0x33#8 .command s.bl))
  | .ctrlResetB, s => .ok (sendSteps s.cfg.tDelay (sixBytes 0x32#8 .command s.bl))
  | .ctrlEntryMode, s => .ok (sendSteps s.cfg.tDelay (sixBytes 0x06#8 .command s.bl))
  | .ctrlDisplayOn, s => .ok (sendSteps s.cfg.tDelay (sixBytes 0x0C#8 .command s.bl))
  | .ctrlFunctionSet, s => .ok (sendSteps s.cfg.tDelay (sixBytes 0x28#8 .command s.bl))
  | .ctrlClear, s => .ok (sendSteps s.cfg.tDelay (sixBytes 0x01#8 .command s.bl))
  | .ctrlSetDdram a, s => .ok (sendSteps s.cfg.tDelay (sixBytes (1#1 ++ a) .command s.bl))
  | .init, s => .ok (initSteps s.cfg s.isOpen)
  | .clear, s => .ok (sendSteps s.cfg.tDelay (sixBytes 0x01#8 .command s.bl))
  | .print row col text, s => printSteps s.cfg s.bl row col text
  | .setbl on, _ => .ok [.setBL on]
  | .close, s => .ok (closeSteps s.isOpen)
  | .frame _ _ _, _ => .ok []
  | .strobe f, s => .ok (strobeSteps s.cfg.tDelay f)
  | .write v m, s => .ok (sendSteps s.cfg.tDelay (sixBytes v m s.bl))
  | .initseq, s => .ok (initseqSteps s.cfg)
  | .movecursor row col, s => cursorSteps s.cfg s.bl row col
  | .openBus, s => .ok (openSteps s.cfg)

/-- The result an instruction ends with when no check and no transmit fails. -/
def planResponse : Instr → Response
  | .frame v m on => .frames (highFrame v m on) (lowFrame v m on)
  | .setbl _ => .noStatus
  | .close => .noStatus
  | _ => .ok

/-- Run a plan. -/
def runPlan (p : Except Err (List MicroOp)) (r : Response) (s : State) : State :=
  match p with
  | .error e => raise e s
  | .ok todo => runSeq todo r s

@[simp] theorem runPlan_error (e : Err) (r : Response) (s : State) : runPlan (.error e) r s = raise e s := rfl

@[simp] theorem runPlan_ok (todo : List MicroOp) (r : Response) (s : State) :
    runPlan (.ok todo) r s = runSeq todo r s := rfl

theorem whenIdle_idle {s : State} (h : s.seq = .idle) (k : Result) : whenIdle s k = k := by simp [whenIdle, h]

theorem whenIdle_busy {s : State} {todo : List MicroOp} {r : Response} (h : s.seq = .busy todo r) (k : Result) :
    whenIdle s k = .refused .busy := by simp [whenIdle, h]

@[simp] theorem whenOpen_eq (s : State) (k : Result) :
    whenOpen s k = if s.isOpen then k else .refused .notOpen := rfl

@[simp] theorem whenClosed_eq (s : State) (k : Result) :
    whenClosed s k = if s.isOpen then .refused .alreadyOpen else k := rfl

/-- exec, as one equation: the check that the block is idle, the precondition on OPEN, the run of the plan. -/
theorem exec_eq (i : Instr) (s : State) :
    exec i s = whenIdle s
      (if needsOpen i && !s.isOpen then .refused .notOpen
       else if (match i with | .openBus => s.isOpen | _ => false) then .refused .alreadyOpen
       else .next (runPlan (plan i s) (planResponse i) s)) := by
  cases i <;>
    simp only [exec, execFrameCmdLo, execFrameCmdHi, execFrameDataLo, execFrameDataHi, execCtrlResetA, execCtrlResetB,
      execCtrlEntryMode, execCtrlDisplayOn, execCtrlFunctionSet, execCtrlClear, execCtrlSetDdram, execInit, execClear,
      execPrint, execSetbl, execClose, execFrame, execStrobe, execWrite, execInitseq, execMovecursor, execOpen,
      transmit, perform, checkedTransmit, needsOpen, plan, planResponse, writeSteps_eq_sendSteps, cmdClear,
      whenOpen_eq, whenClosed_eq, runPlan] <;>
    cases s.isOpen <;> rfl

/-- When exec answers a next state, and which. -/
theorem exec_next_iff (i : Instr) (s t : State) :
    exec i s = .next t ↔
      s.seq = .idle ∧ (needsOpen i = true → s.isOpen = true) ∧ (i = .openBus → s.isOpen = false) ∧
        t = runPlan (plan i s) (planResponse i) s := by
  rw [exec_eq]
  rcases hq : s.seq with _ | ⟨todo, r⟩
  · rw [whenIdle_idle hq]
    cases i <;> cases ho : s.isOpen <;> simp [needsOpen, eq_comm]
  · simp [whenIdle_busy hq]

/-- exec under an idle block and a met precondition. -/
theorem exec_of_ready {i : Instr} {s : State} (hq : s.seq = .idle) (ho : needsOpen i = true → s.isOpen = true)
    (hc : i = .openBus → s.isOpen = false) : exec i s = .next (runPlan (plan i s) (planResponse i) s) :=
  (exec_next_iff i s _).2 ⟨hq, ho, hc, rfl⟩

/-! ### What a next state can be -/

theorem cursorByte_error {c : Config} {row col : Nat} {e : Err} (h : cursorByte c row col = .error e) :
    e = .rowOutOfRange ∨ e = .colOutOfRange := by
  unfold cursorByte at h
  split at h
  · cases h; exact .inl rfl
  split at h
  · cases h; exact .inr rfl
  split at h <;> cases h
  exact .inl rfl

/-- Only the two operations with range checks have a plan that is an error, and it is a range error (R192, R193). -/
theorem plan_error {i : Instr} {s : State} {e : Err} (h : plan i s = .error e) :
    ((∃ row col, i = .movecursor row col) ∨ (∃ row col text, i = .print row col text)) ∧
      (e = .rowOutOfRange ∨ e = .colOutOfRange) := by
  cases i with
  | print row col text =>
    refine ⟨.inr ⟨_, _, _, rfl⟩, ?_⟩
    simp only [plan, printSteps, cursorSteps] at h
    split at h
    · cases h; exact .inr rfl
    split at h
    · cases h
    split at h
    · next hs =>
      split at hs
      · next hc => cases h; cases hs; exact cursorByte_error hc
      · cases hs
    · cases h
  | movecursor row col =>
    refine ⟨.inl ⟨_, _, rfl⟩, ?_⟩
    simp only [plan, cursorSteps] at h
    split at h
    · next hc => cases h; exact cursorByte_error hc
    · cases h
  | _ => simp only [plan] at h; cases h

/-- The plan of an accepted MOVECURSOR. -/
theorem plan_movecursor_ok {s : State} {row col : Nat} {todo : List MicroOp}
    (h : plan (.movecursor row col) s = .ok todo) :
    ∃ v, cursorByte s.cfg row col = .ok v ∧ todo = sendSteps s.cfg.tDelay (sixBytes v .command s.bl) := by
  simp only [plan, cursorSteps] at h
  split at h
  · cases h
  · next v hv => cases h; exact ⟨v, hv, writeSteps_eq_sendSteps _ _ _ _⟩

/-- The plan of an accepted PRINT: nothing for the empty text, else one run of transmits. -/
theorem plan_print_ok {s : State} {row col : Nat} {text : List Byte} {todo : List MicroOp}
    (h : plan (.print row col text) s = .ok todo) :
    (text = [] ∧ todo = []) ∨
    (text ≠ [] ∧ ∃ v, cursorByte s.cfg row col = .ok v ∧
      todo = sendSteps s.cfg.tDelay
        (sixBytes v .command s.bl ++ text.flatMap (fun ch => sixBytes ch .data s.bl))) := by
  simp only [plan, printSteps, cursorSteps] at h
  split at h
  · cases h
  split at h
  · next h0 => cases h; exact .inl ⟨List.eq_nil_of_length_eq_zero h0, rfl⟩
  split at h
  · cases h
  · next h0 _ _ hs =>
    split at hs
    · cases hs
    · next v hv =>
      cases hs; cases h
      exact .inr ⟨by rintro rfl; exact h0 rfl, v, hv,
        by rw [writeSteps_eq_sendSteps, textSteps_eq_sendSteps, ← sendSteps_append]⟩

/-- Everything exec can answer as a next state: the block was idle and the precondition met, and a check raised its error or
the plan ran in one of the three ways of `Ran`. -/
theorem exec_ran {i : Instr} {s t : State} (h : exec i s = .next t) :
    (s.seq = .idle ∧ (needsOpen i = true → s.isOpen = true) ∧ (i = .openBus → s.isOpen = false)) ∧
    ((∃ e, plan i s = .error e ∧ t = raise e s) ∨
     (∃ todo, plan i s = .ok todo ∧ Ran todo (planResponse i) s t ∧ t = runSeq todo (planResponse i) s)) := by
  rw [exec_next_iff] at h
  obtain ⟨h1, h2, h3, rfl⟩ := h
  refine ⟨⟨h1, h2, h3⟩, ?_⟩
  rcases plan i s with e | todo
  · exact .inl ⟨e, rfl, rfl⟩
  · exact .inr ⟨todo, rfl, ran_runSeq _ _ _, rfl⟩

/-- Everything a step can answer as a next state (R60). -/
theorem step_cases {s t : State} (h : step s = .next t) :
    (∃ todo r, s.seq = .busy todo r ∧ t = runSeq todo r s) ∨ (s.seq = .idle ∧ s.cmd = [] ∧ t = s) ∨
    (s.seq = .idle ∧ ∃ i q qs, s.cmd = q :: qs ∧ decode q = .ok i ∧ exec i (s.setCmd qs) = .next t) := by
  unfold step at h
  rcases hq : s.seq with _ | ⟨todo, r⟩
  · rcases hc : s.cmd with _ | ⟨q, qs⟩
    · simp [fetch, hq, hc] at h
      exact .inr (.inl ⟨rfl, rfl, h.symm⟩)
    · simp only [fetch, hq, hc] at h
      split at h
      · cases h
      · next i hd =>
        split at h
        · exact .inr (.inr ⟨rfl, i, q, qs, rfl, hd, h⟩)
        · cases h
  · simp [fetch, hq] at h
    exact .inl ⟨todo, r, rfl, h.symm⟩

end Sys2Proof.Machine
end

