-- ==== Sys2Proof/Laws/Observe.lean ====
section
/-! SUPPORT. The trace functions of Machine/Observe.lean over a concatenation and over a run of paced transmits. -/

namespace Sys2Proof.Machine

theorem txBytes_append (a b : List Event) : txBytes (a ++ b) = txBytes a ++ txBytes b := by
  induction a with
  | nil => rfl
  | cons x xs ih => cases x <;> simp [txBytes, ih]

theorem transmits_append (a b : List Event) : transmits (a ++ b) = transmits a ++ transmits b := by
  induction a with
  | nil => rfl
  | cons x xs ih => cases x <;> simp [transmits, ih]

/-- A successful transmit puts its byte on the lines (R70), whatever went before. -/
@[simp] theorem lastTx_append_tx (es : List Event) (b : Byte) : lastTx (es ++ [.tx b]) = some b := by
  simp [lastTx, transmits_append, transmits]

/-- A failed transmit leaves the lines unknown (10_state.md R42), whatever went before. -/
@[simp] theorem lastTx_append_txFail (es : List Event) (b : Byte) : lastTx (es ++ [.txFail b]) = none := by
  simp [lastTx, transmits_append, transmits]

/-- Events that are no transmits (waits, opens, closes) change no line. -/
theorem lastTx_append_of_transmits_nil (es : List Event) {fs : List Event} (h : transmits fs = []) :
    lastTx (es ++ fs) = lastTx es := by
  simp [lastTx, transmits_append, h]

theorem minDuration_append (a b : List Event) : minDuration (a ++ b) = minDuration a + minDuration b := by
  induction a with
  | nil => simp [minDuration]
  | cons x xs ih => cases x <;> simp [minDuration, ih, Nat.add_assoc]

theorem countTx_append (a b : List Event) : countTx (a ++ b) = countTx a + countTx b := by
  simp [countTx, txBytes_append]

theorem pacedTx_append (d : Duration) (a b : List Byte) : pacedTx d (a ++ b) = pacedTx d a ++ pacedTx d b := by
  simp [pacedTx]

@[simp] theorem txBytes_pacedTx (d : Duration) (bs : List Byte) : txBytes (pacedTx d bs) = bs := by
  induction bs with
  | nil => rfl
  | cons b bs ih => exact congrArg (b :: ·) ih

@[simp] theorem transmits_pacedTx (d : Duration) (bs : List Byte) :
    transmits (pacedTx d bs) = bs.map (fun b => ⟨true, b⟩) := by
  induction bs with
  | nil => rfl
  | cons b bs ih => exact congrArg (Transmit.mk true b :: ·) ih

/-- After a run of transmits answered `Ok` the lines carry the last of them (R70). -/
theorem lastTx_append_pacedTx (es : List Event) (d : Duration) (bs : List Byte) (b : Byte) :
    lastTx (es ++ pacedTx d (bs ++ [b])) = some b := by
  simp [lastTx, transmits_append]

@[simp] theorem countTx_pacedTx (d : Duration) (bs : List Byte) : countTx (pacedTx d bs) = bs.length := by
  simp [countTx]

@[simp] theorem minDuration_pacedTx (d : Duration) (bs : List Byte) :
    minDuration (pacedTx d bs) = bs.length * d := by
  induction bs with
  | nil => simp [pacedTx, minDuration]
  | cons b bs ih =>
    have : pacedTx d (b :: bs) = .tx b :: .delay d :: pacedTx d bs := rfl
    rw [this]
    simp only [minDuration, ih, List.length_cons]
    ring

/-- The events of a run of transmits (R71). -/
@[simp] theorem okEvents_sendSteps (d : Duration) (bs : List Byte) :
    (sendSteps d bs).flatMap okEvents = pacedTx d bs := by
  induction bs with
  | nil => rfl
  | cons b bs ih => simp [okEvents, ih, pacedTx]

/-- The events of an INITSEQ that ends `Ok` (R141). -/
theorem okEvents_initseqSteps (c : Config) :
    (initseqSteps c).flatMap okEvents = pacedTx c.tDelay init36 ++ [.delay c.tSettleInit] := by
  rw [initseqSteps_eq]
  simp [okEvents]

end Sys2Proof.Machine
end

