-- ==== Sys2Proof/Laws/PerInstr.lean ====
section
/-! SUPPORT. A property of every instruction, one lemma for each constructor. -/

namespace Sys2Proof.Laws.EncodesCanonically

/-- The encoder leaves every field that the operation does not use at 0 (30_encoding.md R93). -/
def Statement (i : Instr) : Prop := (encode i).used = encode i

theorem frameCmdLo (d : Nibble) (b : Bool) : Statement (.frameCmdLo d b) := rfl
theorem frameCmdHi (d : Nibble) (b : Bool) : Statement (.frameCmdHi d b) := rfl
theorem frameDataLo (d : Nibble) (b : Bool) : Statement (.frameDataLo d b) := rfl
theorem frameDataHi (d : Nibble) (b : Bool) : Statement (.frameDataHi d b) := rfl
theorem ctrlResetA : Statement .ctrlResetA := rfl
theorem ctrlResetB : Statement .ctrlResetB := rfl
theorem ctrlEntryMode : Statement .ctrlEntryMode := rfl
theorem ctrlDisplayOn : Statement .ctrlDisplayOn := rfl
theorem ctrlFunctionSet : Statement .ctrlFunctionSet := rfl
theorem ctrlClear : Statement .ctrlClear := rfl
theorem ctrlSetDdram (a : BitVec 7) : Statement (.ctrlSetDdram a) := rfl
theorem init : Statement .init := rfl
theorem clear : Statement .clear := rfl
theorem print (row col : Nat) (text : List Byte) : Statement (.print row col text) := rfl
theorem setbl (on : Bool) : Statement (.setbl on) := rfl
theorem close : Statement .close := rfl
theorem frame (value : Byte) (mode : Mode) (backlightOn : Bool) : Statement (.frame value mode backlightOn) := rfl
theorem strobe (frame : Byte) : Statement (.strobe frame) := rfl
theorem write (value : Byte) (mode : Mode) : Statement (.write value mode) := rfl
theorem initseq : Statement .initseq := rfl
theorem movecursor (row col : Nat) : Statement (.movecursor row col) := rfl
theorem openBus : Statement .openBus := rfl

end Sys2Proof.Laws.EncodesCanonically
end

