-- ==== Sys2Proof/Tests/Slice0.lean ====
section
/-! SUPPORT. Tests: ill-formed terms, words written out from the encoding tables, single operations against the vectors of
95_test_vectors.md, and for each statement with hypotheses a state and operands that meet them. -/

namespace Sys2Proof.Tests

open Sys2Proof Sys2Proof.Machine

/-! ### Helpers -/

/-- Open and initialised, geometry 4 x 20, with n writes answered `Ok` (the start state of 95_test_vectors.md 2.6). -/
def opened (n : Nat) (bl : Bool := true) : State :=
  { State.reset with isOpen := true, inited := true, handle := 7, bl := bl, busWrites := List.replicate n .ok }

/-- The same with the (k+1)-th write answered with the error detail 9. -/
def failing (k : Nat) (bl : Bool := true) : State :=
  { opened 0 bl with busWrites := List.replicate k .ok ++ [.error 9] }

/-- Closed, with the next open answered with handle 7 and then n writes answered `Ok`. -/
def closedWith (n : Nat) : State :=
  { State.reset with busOpens := [.handle 7], busWrites := List.replicate n .ok }

/-- The same geometry question for other sizes. -/
def opened' (rows cols n : Nat) : State :=
  { opened n with cfg := { Config.standard with rows := rows, cols := cols } }

/-- One field of the next state of an instruction. -/
def after {α : Type} (i : Instr) (s : State) (f : State → α) : Option α :=
  match exec i s with
  | .next t => some (f t)
  | _ => none

/-- The bytes transmitted `Ok`, and how many events there are. -/
def sent (i : Instr) (s : State) : Option (List Nat × Nat) :=
  after i s (fun t => ((txBytes t.trace).map BitVec.toNat, t.trace.length))

/-- The last event and the RSP transactions. -/
def ending (i : Instr) (s : State) : Option (Option Event × List Response) :=
  after i s (fun t => (t.trace.getLast?, t.rsp))

/-- BL, OPEN, INITED. -/
def control (i : Instr) (s : State) : Option (Bool × Bool × Bool) :=
  after i s (fun t => (t.bl, t.isOpen, t.inited))

/-- The refusal of an instruction. -/
def refusal (i : Instr) (s : State) : Option Refusal :=
  match exec i s with
  | .refused r => some r
  | _ => none

/-! ### WellFormed: each check refuses an ill-formed term (92_eei_decisions.md D9, D15) -/

/-- A clocked binding with 3 bits of row, 6 of column, 5 of length. -/
def bound : Config := { Config.standard with binding := some ⟨1000000, 3, 6, 5⟩ }

theorem smoke_print_row : (Instr.print 8 0 []).wf bound = false := by decide
theorem smoke_print_col : (Instr.print 1 64 []).wf bound = false := by decide
theorem smoke_print_len : (Instr.print 1 0 (List.replicate 32 0x41#8)).wf bound = false := by decide
theorem smoke_movecursor_row : (Instr.movecursor 8 0).wf bound = false := by decide
theorem smoke_movecursor_col : (Instr.movecursor 1 64).wf bound = false := by decide
theorem smoke_fits : (Instr.print 7 63 (List.replicate 31 0x41#8)).wf bound = true := by decide
theorem smoke_no_binding : (Instr.movecursor 1000 1000).wf Config.standard = true := by decide
theorem smoke_geometry_rows : ¬({ Config.standard with rows := 5 } : Config).geometryOk := by decide
theorem smoke_geometry_no_row : ¬({ Config.standard with rows := 0 } : Config).geometryOk := by decide
theorem smoke_geometry_cols : ¬({ Config.standard with cols := 0 } : Config).geometryOk := by decide
theorem smoke_geometry_edges : ({ Config.standard with rows := 1, cols := 1 } : Config).geometryOk := by decide
theorem smoke_delay : ¬({ Config.standard with tDelay := 999 } : Config).delayOk := by decide

/-! ### Decode: a word of each constructor, bit by bit (30_encoding.md R81, R88, R92, R93) -/

theorem test_decode_frameCmdLo : decode (.frame8 0b10101000#8) = .ok (.frameCmdLo 0b1010#4 true) := by rfl
theorem test_decode_frameCmdHi : decode (.frame8 0b01010100#8) = .ok (.frameCmdHi 0b0101#4 false) := by rfl
theorem test_decode_frameDataLo : decode (.frame8 0b11100001#8) = .ok (.frameDataLo 0b1110#4 false) := by rfl
theorem test_decode_frameDataHi : decode (.frame8 0b00011101#8) = .ok (.frameDataHi 0b0001#4 true) := by rfl
theorem test_decode_ctrlResetA : decode (.ctrl8 0b00110011#8) = .ok .ctrlResetA := by rfl
theorem test_decode_ctrlResetB : decode (.ctrl8 0b00110010#8) = .ok .ctrlResetB := by rfl
theorem test_decode_ctrlEntryMode : decode (.ctrl8 0b00000110#8) = .ok .ctrlEntryMode := by rfl
theorem test_decode_ctrlDisplayOn : decode (.ctrl8 0b00001100#8) = .ok .ctrlDisplayOn := by rfl
theorem test_decode_ctrlFunctionSet : decode (.ctrl8 0b00101000#8) = .ok .ctrlFunctionSet := by rfl
theorem test_decode_ctrlClear : decode (.ctrl8 0b00000001#8) = .ok .ctrlClear := by rfl
theorem test_decode_ctrlSetDdram : decode (.ctrl8 0b11010100#8) = .ok (.ctrlSetDdram 0b1010100#7) := by rfl
theorem test_decode_init : decode (.cmdOp4 0b0001#4 { row := 3 }) = .ok .init := by rfl
theorem test_decode_clear : decode (.cmdOp4 0b0010#4 { value := 0xFF#8 }) = .ok .clear := by rfl
theorem test_decode_print :
    decode (.cmdOp4 0b0011#4 { row := 2, col := 3, text := [0x4F#8, 0x4B#8] })
      = .ok (.print 2 3 [0x4F#8, 0x4B#8]) := by rfl
theorem test_decode_setbl_on : decode (.cmdOp4 0b0100#4 { on := 1#1 }) = .ok (.setbl true) := by rfl
theorem test_decode_setbl_off : decode (.cmdOp4 0b0100#4 { on := 0#1 }) = .ok (.setbl false) := by rfl
theorem test_decode_close : decode (.cmdOp4 0b0101#4 { }) = .ok .close := by rfl
theorem test_decode_frame :
    decode (.cmdOp4 0b1000#4 { value := 0x48#8, mode := 1#1, on := 0#1 }) = .ok (.frame 0x48#8 .data false) := by rfl
theorem test_decode_strobe : decode (.cmdOp4 0b1001#4 { value := 0x49#8 }) = .ok (.strobe 0x49#8) := by rfl
theorem test_decode_write :
    decode (.cmdOp4 0b1010#4 { value := 0x01#8, mode := 0#1 }) = .ok (.write 0x01#8 .command) := by rfl
theorem test_decode_initseq : decode (.cmdOp4 0b1011#4 { }) = .ok .initseq := by rfl
theorem test_decode_movecursor :
    decode (.cmdOp4 0b1100#4 { row := 3, col := 5 }) = .ok (.movecursor 3 5) := by rfl
theorem test_decode_openBus : decode (.cmdOp4 0b1101#4 { }) = .ok .openBus := by rfl
theorem test_decode_unassigned (f : Fields) : decode (.cmdOp4 0b0110#4 f) = .error (.unassignedOp 6#4) := by rfl
theorem test_decode_rw : decode (.frame8 0x4B#8) = .error (.notFramed 0x4B#8) := by rfl
theorem test_decode_not_a_command : decode (.ctrl8 0x02#8) = .error (.notACommand 0x02#8) := by rfl
theorem test_table_words :
    decodeTableWord 8 0x49 = some (.frameDataLo 4#4 true) ∧ decodeTableWord 8 0x94 = some (.ctrlSetDdram 0x14#7) ∧
      decodeTableWord 4 13 = some .openBus ∧ decodeTableWord 8 10 = some (.write 0#8 .command) ∧
      decodeTableWord 4 15 = none := by decide
theorem test_fetch_word :
    step (State.reset.withFetchWord 4 4) = exec (.setbl false) State.reset ∧
      step (State.reset.withFetchWord 8 0x49) = .refused .notOpen := ⟨rfl, rfl⟩

/-! ### Single operations against the vectors of 95_test_vectors.md -/

/-- V-F13, V-F22. -/
theorem test_frame :
    ending (.frame 0xA5#8 .data true) State.reset = some (none, [.frames 0xA9#8 0x59#8]) ∧
      ending (.frame 0x08#8 .command false) State.reset = some (none, [.frames 0x00#8 0x80#8]) := by decide

/-- V-T1. -/
theorem test_strobe :
    after (.strobe 0x49#8) (opened 2) (fun t => t.trace)
      = some [.delay 5000, .tx 0x4D#8, .delay 5000, .tx 0x49#8, .delay 5000] := by decide

/-- V-T10, V-T11. -/
theorem test_strobe_stops :
    after (.strobe 0x49#8) (failing 1) (fun t => t.trace)
      = some [.delay 5000, .tx 0x4D#8, .delay 5000, .txFail 0x49#8] ∧
    after (.strobe 0x49#8) (opened 0) (fun t => (t.trace, t.rsp, t.outstanding))
      = some ([.delay 5000], [], .writing 7 0x4D#8) := by decide

/-- V-W8. -/
theorem test_write : sent (.write 0xA5#8 .data) (opened 6) = some ([0xA9, 0xAD, 0xA9, 0x59, 0x5D, 0x59], 12) := by
  decide

/-- V-W13. -/
theorem test_write_fails :
    sent (.write 0x48#8 .data) (failing 2) = some ([0x49, 0x4D], 5) ∧
      ending (.write 0x48#8 .data) (failing 2) = some (some (.txFail 0x49#8), [.err (.transportError 9)]) := by decide

/-- V-I1. -/
theorem test_initseq :
    sent .initseq (opened 36 false) = some (
      [0x38, 0x3C, 0x38, 0x38, 0x3C, 0x38] ++ [0x38, 0x3C, 0x38, 0x28, 0x2C, 0x28] ++
      [0x08, 0x0C, 0x08, 0x68, 0x6C, 0x68] ++ [0x08, 0x0C, 0x08, 0xC8, 0xCC, 0xC8] ++
      [0x28, 0x2C, 0x28, 0x88, 0x8C, 0x88] ++ [0x08, 0x0C, 0x08, 0x18, 0x1C, 0x18], 73) ∧
    control .initseq (opened 36 false) = some (true, true, true) := by decide +kernel

/-- V-I2. -/
theorem test_initseq_fails :
    sent .initseq (failing 9 false) = some ([0x38, 0x3C, 0x38, 0x38, 0x3C, 0x38, 0x38, 0x3C, 0x38], 19) ∧
      control .initseq (failing 9 false) = some (true, true, false) := by decide

/-- V-C1, V-C5. -/
theorem test_movecursor :
    sent (.movecursor 3 5) (opened 6) = some ([0x98, 0x9C, 0x98, 0x98, 0x9C, 0x98], 12) ∧
      sent (.movecursor 1 20) (opened 6) = some ([0x98, 0x9C, 0x98, 0x48, 0x4C, 0x48], 12) := by decide

/-- R151 and R157: row 0 with a bad column; the first and last columns of each row of a 4 x 20 display. -/
theorem test_movecursor_checks :
    ending (.movecursor 0 21) (opened 6) = some (none, [.err .rowOutOfRange]) ∧
      [(1, 0), (1, 19), (2, 20), (3, 19), (4, 0), (4, 20)].map
        (fun p => (cursorByte Config.standard p.1 p.2).toOption.map BitVec.toNat)
        = [some 0x80, some 0x93, some 0xD4, some 0xA7, some 0xD4, some 0xE8] := by decide

/-- V-L14. -/
theorem test_open :
    ending .openBus (closedWith 0) = some (some .opened, [.ok]) ∧
      control .openBus (closedWith 0) = some (false, true, false) := by decide

/-- V-L1, V-L2. -/
theorem test_init :
    control .init (closedWith 36) = some (true, true, true) ∧
      ending .init { State.reset with busOpens := [.error 9] }
        = some (some .openFail, [.err (.transportError 9)]) := by decide

/-- V-L3. -/
theorem test_init_fails :
    control .init { closedWith 0 with busWrites := List.replicate 9 .ok ++ [.error 9] } = some (true, true, false) := by
  decide

/-- V-P15, V-P16. -/
theorem test_clear :
    sent .clear (opened 6) = some ([0x08, 0x0C, 0x08, 0x18, 0x1C, 0x18], 12) ∧
      sent .clear (opened 6 false) = some ([0x00, 0x04, 0x00, 0x10, 0x14, 0x10], 12) := by decide

/-- V-P1. -/
theorem test_print :
    sent (.print 1 0 [0x48#8, 0x49#8]) (opened 18) = some (
      [0x88, 0x8C, 0x88, 0x08, 0x0C, 0x08] ++ [0x49, 0x4D, 0x49, 0x89, 0x8D, 0x89] ++
      [0x49, 0x4D, 0x49, 0x99, 0x9D, 0x99], 36) := by decide

/-- V-P4, V-P7, V-P8, V-P9. -/
theorem test_print_checks :
    ending (.print 1 18 [0x41#8, 0x42#8, 0x43#8]) (opened 99) = some (none, [.err .colOutOfRange]) ∧
      ending (.print 0 21 []) (opened 99) = some (none, [.err .colOutOfRange]) ∧
      ending (.print 9 20 []) (opened 99) = some (none, [.ok]) ∧
      ending (.print 5 0 [0x41#8]) (opened 99) = some (none, [.err .rowOutOfRange]) := by decide

/-- V-P19, V-L8. -/
theorem test_setbl :
    control (.setbl false) (opened 0) = some (false, true, true) ∧
      ending (.setbl true) State.reset = some (none, [.noStatus]) := by decide

/-- V-L6, V-L7. -/
theorem test_close :
    control .close (opened 0) = some (true, false, false) ∧
      ending .close (opened 0) = some (some .closed, [.noStatus]) ∧
      ending .close State.reset = some (none, [.noStatus]) := by decide

/-- The frame rows of R81, each one transmit (entry 11). -/
theorem test_frame_rows :
    [Instr.frameCmdLo 4#4 true, .frameCmdHi 4#4 true, .frameDataLo 4#4 false, .frameDataHi 4#4 false].map
      (fun i => sent i (opened 1)) = [some ([0x48], 1), some ([0x4C], 1), some ([0x41], 1), some ([0x45], 1)] := by
  decide

/-- The command rows of R88: the nibbles each puts on the data lines (R90 for the first two; entry 12). -/
theorem test_ctrl_rows :
    [Instr.ctrlResetA, .ctrlResetB, .ctrlEntryMode, .ctrlDisplayOn, .ctrlFunctionSet, .ctrlClear,
      .ctrlSetDdram 0x14#7].map (fun i => after i (opened 6) (fun t => (strobes t.trace).map (fun p => p.2.toNat)))
    = [some [3, 3], some [3, 2], some [0, 6], some [0, 12], some [2, 8], some [0, 1], some [9, 4]] := by decide

/-- V-L10, and OPEN while open (R212). -/
theorem test_refusals :
    refusal .clear State.reset = some .notOpen ∧ refusal (.print 9 99 []) State.reset = some .notOpen ∧
      refusal .openBus (opened 0) = some .alreadyOpen := by decide

/-- 10_state.md R42, 91_not_in_source.md N12: the lines are not known at reset, nor after a failed write, and are the last
byte's (0x88, layout of 30_encoding.md R80) again after a write that succeeds. -/
theorem test_pins_unknown_after_a_failed_write :
    pins State.reset.trace = none ∧
    pins [.tx 0x8D#8, .delay 5, .txFail 0x89#8] = none ∧
    pins [.tx 0x8D#8, .delay 5, .txFail 0x89#8, .tx 0x88#8, .delay 5] = some ⟨8#4, true, false, false, false⟩ := by
  decide

/-- `bytes` of V-P1, and `none` after the failure of V-W14. -/
theorem test_bytes :
    after (.print 1 0 [0x48#8, 0x49#8]) (opened 18) (fun t => bytes t.trace)
      = some (some [(false, 0x80#8), (true, 0x48#8), (true, 0x49#8)]) ∧
    after (.write 0x48#8 .data) (failing 3) (fun t => (bytes t.trace, strobes t.trace))
      = some (none, [(true, 4#4)]) := by decide

/-- R215: the timer's count for 5 microseconds at 1 MHz, and for 1 nanosecond rounded up. -/
theorem test_waitTicks :
    (⟨1000000, 3, 6, 5⟩ : Binding).waitTicks 5000 = 5 ∧ (⟨1000000, 3, 6, 5⟩ : Binding).waitTicks 1 = 1 := by decide

/-! ### Witnesses: for each statement with hypotheses, a state and operands that meet them together -/

/-- A request whose unused field is not 0. -/
theorem witness_EncodeOfDecode :
    decode (.cmdOp4 12#4 { row := 4, col := 20, value := 0xFF#8 }) = .ok (.movecursor 4 20) := rfl

/-- One byte for each clause, the first and the last of its range. -/
theorem witness_FrameKindsPartitionTheBytesWithRwClear :
    [0x02#8, 0xFF#8].all (fun b : Byte => b.getLsbD 1) ∧
    [0x00#8, 0xF8#8].all (fun b : Byte => !b.getLsbD 1 && !b.getLsbD 2 && !b.getLsbD 0) ∧
    [0x04#8, 0xFC#8].all (fun b : Byte => !b.getLsbD 1 && b.getLsbD 2 && !b.getLsbD 0) ∧
    [0x01#8, 0xF9#8].all (fun b : Byte => !b.getLsbD 1 && !b.getLsbD 2 && b.getLsbD 0) ∧
    [0x05#8, 0xFD#8].all (fun b : Byte => !b.getLsbD 1 && b.getLsbD 2 && b.getLsbD 0) := by decide

theorem witness_UnassignedCodesAreRefused :
    ((0#4).toNat ∈ [0, 6, 7, 14, 15] ∧ (15#4).toNat ∈ [0, 6, 7, 14, 15]) ∧
      (1#4).toNat ∉ [0, 6, 7, 14, 15] ∧ (13#4).toNat ∉ [0, 6, 7, 14, 15] := by decide

/-- A state of 1 x 1, of 4 x 20, and the three that are refused (rows 0, rows 5, no column). -/
theorem witness_ConstructionNeedsAWellFormedGeometry :
    (let c : Config := { Config.standard with rows := 1, cols := 1 }; 1 ≤ c.rows ∧ c.rows ≤ 4 ∧ 1 ≤ c.cols) ∧
    (let c : Config := { Config.standard with rows := 4 }; 1 ≤ c.rows ∧ c.rows ≤ 4 ∧ 1 ≤ c.cols) ∧
    (let c : Config := { Config.standard with rows := 0 }; ¬(1 ≤ c.rows ∧ c.rows ≤ 4 ∧ 1 ≤ c.cols)) ∧
    (let c : Config := { Config.standard with rows := 5 }; ¬(1 ≤ c.rows ∧ c.rows ≤ 4 ∧ 1 ≤ c.cols)) ∧
    (let c : Config := { Config.standard with cols := 0 }; ¬(1 ≤ c.rows ∧ c.rows ≤ 4 ∧ 1 ≤ c.cols)) := by decide

/-- An idle block with no request, and with one for each clause. -/
theorem witness_StepRunsTheDecodedInstruction :
    (State.reset.seq = .idle ∧ State.reset.cmd = []) ∧
    (decode (.cmdOp4 4#4 { }) = .ok (.setbl false) ∧ (Instr.setbl false).wf State.reset.cfg = true) ∧
    (decode (.cmdOp4 12#4 { row := 8 }) = .ok (.movecursor 8 0) ∧ (Instr.movecursor 8 0).wf bound = false) ∧
    decode (.cmdOp4 14#4 { }) = .error (.unassignedOp 14#4) := ⟨⟨rfl, rfl⟩, ⟨rfl, rfl⟩, ⟨rfl, rfl⟩, rfl⟩

/-- A block that waits for the answer to its third write, with two requests behind it. -/
def waiting : State :=
  { opened 0 with
    seq := .busy [.busWrite 0x49#8, .wait 5000, .busWrite 0x89#8] .ok
    cmd := [.cmdOp4 2#4 { }, .cmdOp4 5#4 { }] }

/-- A block that waits for the answer to an open. -/
def opening : State := { State.reset with seq := .busy (initSteps Config.standard false) .ok }

theorem witness_RequestsAreHeldOffWhileBusy :
    step waiting = .next waiting ∧ step State.reset = .next State.reset ∧
      waiting.seq = .busy [.busWrite 0x49#8, .wait 5000, .busWrite 0x89#8] .ok := ⟨rfl, rfl, rfl⟩

theorem witness_UnansweredRequestsHoldTheBlock :
    (waiting.seq = .busy (.busWrite 0x49#8 :: [.wait 5000, .busWrite 0x89#8]) .ok ∧ waiting.busWrites = []) ∧
    (opening.seq = .busy (.busOpen 0 0 :: .setOPEN true :: initseqSteps Config.standard) .ok ∧
      opening.busOpens = []) := ⟨⟨rfl, rfl⟩, rfl, rfl⟩

/-- WRITE with three of its six transmits answered; INIT with its open unanswered. -/
theorem witness_LateAnswersLeadToTheSameState :
    (∃ t, exec (.write 0x48#8 .data) (opened 3) = .next t ∧ t.seq ≠ .idle) ∧
    (∃ t, exec .init State.reset = .next t ∧ t.seq ≠ .idle) := by
  constructor <;> exact ⟨_, rfl, by rintro ⟨⟩⟩

theorem witness_AnOperationEndsUnlessUnanswered :
    (∃ t, exec (.write 0x48#8 .data) (opened 6) = .next t) ∧
    (∃ t, exec (.write 0x48#8 .data) (opened 0) = .next t) ∧ (∃ t, exec .init State.reset = .next t) :=
  ⟨⟨_, rfl⟩, ⟨_, rfl⟩, ⟨_, rfl⟩⟩

theorem witness_EveryInstructionAnswersANextState :
    ((opened 0).seq = .idle ∧ (needsOpen .clear = true → (opened 0).isOpen = true) ∧
      (Instr.clear = .openBus → (opened 0).isOpen = false)) ∧
    (State.reset.seq = .idle ∧ (needsOpen .openBus = true → State.reset.isOpen = true) ∧
      (Instr.openBus = .openBus → State.reset.isOpen = false)) := by decide

theorem witness_ResetMeetsTheInvariant :
    ({ Config.standard with rows := 1, cols := 1 } : Config).geometryOk ∧
      ({ Config.standard with rows := 4, cols := 200 } : Config).geometryOk := by decide

/-- The invariant of an open block that holds a request, and of one that waits, each with its next state. -/
theorem witness_StepKeepsTheInvariant :
    Inv { opened 6 with cmd := [.cmdOp4 2#4 { }] } ∧
    (∃ t, step { opened 6 with cmd := [.cmdOp4 2#4 { }] } = .next t) ∧
    Inv waiting ∧ (∃ t, step waiting = .next t) ∧ Inv opening ∧ (∃ t, step opening = .next t) :=
  ⟨⟨by decide, by decide, rfl, rfl⟩, ⟨_, rfl⟩, ⟨by decide, by decide, rfl, rfl⟩, ⟨_, rfl⟩,
    ⟨by decide, by decide, rfl, rfl⟩, ⟨_, rfl⟩⟩

theorem witness_StepKeepsConfigurationAndHistory :
    ∃ t, step { opened 6 with cmd := [.cmdOp4 2#4 { }] } = .next t := ⟨_, rfl⟩

/-- An idle block, open and closed. -/
theorem witness_FrameReturnsBothFrames : (opened 0).seq = .idle ∧ State.reset.seq = .idle := ⟨rfl, rfl⟩

theorem witness_FramerKeepsNibblesModeAndBacklight :
    highFrame 0xA5#8 .data true = highFrame 0xA5#8 .data true ∧ lowFrame 0xA5#8 .data true = 0x59#8 := by decide

theorem witness_StrobeTransmitsTheEnablePulse :
    (opened 2).seq = .idle ∧ (opened 2).isOpen = true ∧ (opened 2).writesOk 2 := ⟨rfl, rfl, [], rfl⟩

theorem witness_StrobeAbortsAtAFailedTransmit :
    ((failing 0).seq = .idle ∧ (failing 0).isOpen = true ∧ (failing 0).writeFailsAt 0 9) ∧
    ((failing 1).seq = .idle ∧ (failing 1).isOpen = true ∧ (failing 1).writeFailsAt 1 9) :=
  ⟨⟨rfl, rfl, [], rfl⟩, rfl, rfl, [], rfl⟩

/-- An operand with enable set is one of them. -/
theorem witness_StrobeDoesNotInspectItsOperand :
    (opened 2).seq = .idle ∧ (opened 2).isOpen = true ∧ (opened 2).writesOk 2 ∧ (0x4D#8).getLsbD 2 = true :=
  ⟨rfl, rfl, ⟨[], rfl⟩, rfl⟩

theorem witness_WriteSendsBothNibblesHighFirst :
    (opened 6).seq = .idle ∧ (opened 6).isOpen = true ∧ (opened 6).writesOk 6 := ⟨rfl, rfl, [], rfl⟩

/-- The first and the last of the six transmits. -/
theorem witness_WriteStopsAtItsFailingTransmit :
    ((failing 0).seq = .idle ∧ (failing 0).isOpen = true ∧ 0 < 6 ∧ (failing 0).writeFailsAt 0 9) ∧
    ((failing 5).seq = .idle ∧ (failing 5).isOpen = true ∧ 5 < 6 ∧ (failing 5).writeFailsAt 5 9) :=
  ⟨⟨rfl, rfl, by decide, [], rfl⟩, rfl, rfl, by decide, [], rfl⟩

theorem witness_WriteCarriesOneBacklightAndMode :
    (∃ t, exec (.write 0x48#8 .data) (failing 2) = .next t) ∧ (∃ t, exec (.write 0#8 .command) (opened 6) = .next t) :=
  ⟨⟨_, rfl⟩, _, rfl⟩

/-- The last failing transmit with no completed strobe, and the first with one. -/
theorem witness_StrobesOfAWrite :
    ((opened 6).seq = .idle ∧ (opened 6).isOpen = true ∧ (opened 6).writesOk 6) ∧
      (failing 2).writeFailsAt 2 9 ∧ (failing 3).writeFailsAt 3 9 :=
  ⟨⟨rfl, rfl, [], rfl⟩, ⟨[], rfl⟩, [], rfl⟩

/-- The first and the last address of SET_DDRAM. -/
theorem witness_CommandBytesAreSentThroughWrite :
    (opened 6).seq = .idle ∧ (opened 6).isOpen = true ∧ (opened 6).writesOk 6 ∧
      0x80#8 = BitVec.ofNat 8 (0x80 + (0#7).toNat) ∧ 0xFF#8 = BitVec.ofNat 8 (0x80 + (127#7).toNat) :=
  ⟨rfl, rfl, ⟨[], rfl⟩, rfl, rfl⟩

theorem witness_FrameRowsTransmitOneByte :
    ((opened 1).seq = .idle ∧ (opened 1).isOpen = true ∧ (opened 1).writesOk 1) ∧
    ((failing 0).seq = .idle ∧ (failing 0).isOpen = true ∧ (failing 0).writeFailsAt 0 9) :=
  ⟨⟨rfl, rfl, [], rfl⟩, rfl, rfl, [], rfl⟩

theorem witness_InitseqSendsTheSixCommands :
    (opened 36).seq = .idle ∧ (opened 36).isOpen = true ∧ (opened 36).writesOk 36 := ⟨rfl, rfl, [], rfl⟩

theorem witness_InitseqStopsAtItsFailingTransmit :
    ((failing 0).seq = .idle ∧ (failing 0).isOpen = true ∧ 0 < 36 ∧ (failing 0).writeFailsAt 0 9) ∧
    ((failing 35).seq = .idle ∧ (failing 35).isOpen = true ∧ 35 < 36 ∧ (failing 35).writeFailsAt 35 9) :=
  ⟨⟨rfl, rfl, by decide, [], rfl⟩, rfl, rfl, by decide, [], rfl⟩

/-- Row 1 at column 0, and row 4 at column 20 = COLS. -/
theorem witness_MovecursorSendsTheAddressCommand :
    ((opened 6).seq = .idle ∧ (opened 6).isOpen = true ∧ (opened 6).writesOk 6) ∧
    ((1, 0x80) ∈ [(1, 0x80), (2, 0xC0), (3, 0x94), (4, 0xD4)] ∧ 1 ≤ (opened 6).cfg.rows ∧ 0 ≤ (opened 6).cfg.cols) ∧
    ((4, 0xD4) ∈ [(1, 0x80), (2, 0xC0), (3, 0x94), (4, 0xD4)] ∧ 4 ≤ (opened 6).cfg.rows ∧ 20 ≤ (opened 6).cfg.cols) :=
  ⟨⟨rfl, rfl, [], rfl⟩, by decide, by decide⟩

/-- Row 0 and row ROWS + 1; column COLS + 1; row 5 where ROWS is 5 (no well-formed geometry). -/
theorem witness_MovecursorRejectsInOrder :
    ((opened 0).seq = .idle ∧ (opened 0).isOpen = true) ∧
    (0 < 1 ∨ 0 > (opened 0).cfg.rows) ∧ (5 < 1 ∨ 5 > (opened 0).cfg.rows) ∧
    (1 ≤ 4 ∧ 4 ≤ (opened 0).cfg.rows ∧ 21 > (opened 0).cfg.cols) ∧
    (4 < 5 ∧ 5 ≤ (opened' 5 20 0).cfg.rows ∧ 20 ≤ (opened' 5 20 0).cfg.cols) := by decide

/-- The corner col + 20 = COLS, with three rows and with four. -/
theorem witness_RowsAliasTwentyColumnsApart :
    (0 + 20 ≤ (opened 0).cfg.cols ∧ 3 ≤ (opened' 3 20 0).cfg.rows) ∧ 4 ≤ (opened 0).cfg.rows := by decide

theorem witness_CursorByteWrapsOnlyAboveColumn43 :
    (Config.standard.geometryOk ∧ 1 ≤ 4 ∧ 4 ≤ Config.standard.rows ∧ 20 ≤ Config.standard.cols) ∧
    ({ Config.standard with cols := 43 } : Config).cols ≤ 43 ∧
    cursorByte { Config.standard with cols := 43 } 4 43 = .ok 0xFF#8 ∧
    ({ Config.standard with cols := 128 } : Config).rows = 4 ∧ 44 ≤ 128 ∧ 64 ≤ 128 ∧ 108 ≤ 128 ∧ 128 ≤ 128 :=
  ⟨by decide, by decide, rfl, by decide⟩

theorem witness_OpenTakesTheHandle :
    ((closedWith 0).seq = .idle ∧ (closedWith 0).isOpen = false ∧ (closedWith 0).busOpens = .handle 7 :: []) ∧
    (let s := { State.reset with busOpens := [.error 9] };
      s.seq = .idle ∧ s.isOpen = false ∧ s.busOpens = .error 9 :: []) ∧
    ((opened 0).seq = .idle ∧ (opened 0).isOpen = true) := by decide

theorem witness_InitOpensThenInitialises :
    ((closedWith 36).seq = .idle ∧ (closedWith 36).isOpen = false ∧ (closedWith 36).busOpens = .handle 7 :: [] ∧
      (closedWith 36).writesOk 36) ∧
    (let s := { State.reset with busOpens := [.error 9] };
      s.seq = .idle ∧ s.isOpen = false ∧ s.busOpens = .error 9 :: []) ∧ (opened 0).isOpen = true :=
  ⟨⟨rfl, rfl, rfl, [], rfl⟩, ⟨rfl, rfl, rfl⟩, rfl⟩

/-- Closed, the open granted, the (k+1)-th write failing. -/
def closedFailing (k : Nat) : State := { closedWith 0 with busWrites := List.replicate k .ok ++ [.error 9] }

theorem witness_InitKeepsTheHandleWhenInitseqFails :
    ((closedFailing 0).seq = .idle ∧ (closedFailing 0).isOpen = false ∧ (closedFailing 0).busOpens = .handle 7 :: [] ∧
      0 < 36 ∧ (closedFailing 0).writeFailsAt 0 9) ∧
    ((closedFailing 35).busOpens = .handle 7 :: [] ∧ 35 < 36 ∧ (closedFailing 35).writeFailsAt 35 9) :=
  ⟨⟨rfl, rfl, rfl, by decide, [], rfl⟩, rfl, by decide, [], rfl⟩

theorem witness_ClearSendsTheClearCommand :
    (opened 12).seq = .idle ∧ (opened 12).isOpen = true ∧ (opened 12).writesOk 6 ∧ (opened 12).writesOk 12 :=
  ⟨rfl, rfl, ⟨List.replicate 6 .ok, rfl⟩, [], rfl⟩

/-- "HI" at row 1, column 0, and at row 4 so that the last character stands in the last column. -/
theorem witness_PrintSendsTheCursorThenTheText :
    ((opened 18).seq = .idle ∧ (opened 18).isOpen = true ∧ (opened 18).writesOk (6 * ([0x48#8, 0x49#8].length + 1)) ∧
      [0x48#8, 0x49#8] ≠ []) ∧
    ([0x48#8, 0x49#8].length + 0 ≤ (opened 18).cfg.cols ∧ [0x48#8, 0x49#8].length + 18 ≤ (opened 18).cfg.cols) ∧
    ((1, 0x80) ∈ [(1, 0x80), (2, 0xC0), (3, 0x94), (4, 0xD4)] ∧ 1 ≤ (opened 18).cfg.rows) ∧
    ((4, 0xD4) ∈ [(1, 0x80), (2, 0xC0), (3, 0x94), (4, 0xD4)] ∧ 4 ≤ (opened 18).cfg.rows) :=
  ⟨⟨rfl, rfl, ⟨[], rfl⟩, by decide⟩, by decide, by decide, by decide⟩

/-- One column too many; the empty text at column COLS; row 0, row ROWS + 1, and row 5 where ROWS is 5. -/
theorem witness_PrintEndsEarlyInOrder :
    ((opened 0).seq = .idle ∧ (opened 0).isOpen = true) ∧
    [0x41#8].length + 20 > (opened 0).cfg.cols ∧ 20 ≤ (opened 0).cfg.cols ∧
    ([0x41#8] ≠ [] ∧ [0x41#8].length + 19 ≤ (opened 0).cfg.cols ∧ 5 > (opened 0).cfg.rows) ∧
    (5 ≤ (opened' 5 20 0).cfg.rows ∧ 5 > 4) := by decide

theorem witness_PrintStopsAtItsFailingTransmit :
    ((failing 0).seq = .idle ∧ (failing 0).isOpen = true ∧ [0x48#8, 0x49#8] ≠ [] ∧
      [0x48#8, 0x49#8].length + 18 ≤ (failing 0).cfg.cols ∧
      (4, 0xD4) ∈ [(1, 0x80), (2, 0xC0), (3, 0x94), (4, 0xD4)] ∧ 4 ≤ (failing 0).cfg.rows ∧
      0 < 6 * ([0x48#8, 0x49#8].length + 1) ∧ 17 < 6 * ([0x48#8, 0x49#8].length + 1)) ∧
    (failing 0).writeFailsAt 0 9 ∧ (failing 17).writeFailsAt 17 9 :=
  ⟨by decide, ⟨[], rfl⟩, [], rfl⟩

theorem witness_SetblWritesOnlyTheBacklight : State.reset.seq = .idle ∧ (opened 0).seq = .idle := ⟨rfl, rfl⟩

theorem witness_CloseReleasesTheHandle :
    ((opened 0).seq = .idle ∧ (opened 0).isOpen = true) ∧ (State.reset.seq = .idle ∧ State.reset.isOpen = false) :=
  ⟨⟨rfl, rfl⟩, rfl, rfl⟩

theorem witness_TransmittingOperationsAreRefusedWhileClosed :
    State.reset.seq = .idle ∧ State.reset.isOpen = false := ⟨rfl, rfl⟩

theorem witness_CompositionsAreExact :
    cursorByte (opened 6).cfg 4 20 = .ok 0xE8#8 ∧ (opened 6).isOpen = true ∧
    (∃ t, exec .openBus (closedWith 36) = .next t ∧ t.isOpen = true) ∧
    (∃ t, exec .openBus { State.reset with busOpens := [.error 9] } = .next t ∧ t.rsp ≠ [.ok] ∧ t.seq = .idle) :=
  ⟨rfl, rfl, ⟨_, rfl, rfl⟩, _, rfl, by decide, rfl⟩

theorem witness_WriteIsTwoStrobedNibbles :
    (opened 6).seq = .idle ∧ (opened 6).isOpen = true ∧ (opened 6).writesOk 6 := ⟨rfl, rfl, [], rfl⟩

/-- A next state of each kind of instruction the clauses tell apart. -/
theorem witness_BacklightIsWrittenBySetblAndInitseqOnly :
    (∃ t, exec (.setbl false) (opened 0) = .next t) ∧ (∃ t, exec .initseq (opened 36) = .next t) ∧
    (∃ t, exec .init (closedWith 36) = .next t) ∧ (∃ t, exec .clear (opened 6) = .next t) :=
  ⟨⟨_, rfl⟩, ⟨_, rfl⟩, ⟨_, rfl⟩, _, rfl⟩

theorem witness_OpenAndHandleAreWrittenByOpenAndCloseOnly :
    (∃ t, exec .openBus (closedWith 0) = .next t ∧ t.handle ≠ (closedWith 0).handle) ∧
    (∃ t, exec .close (opened 0) = .next t) ∧ (∃ t, exec .init (opened 36) = .next t) ∧
    (∃ t, exec .clear (opened 6) = .next t) ∧
    (∃ t, exec .openBus { State.reset with busOpens := [.error 9] } = .next t ∧
      t.rsp = [] ++ [.err (.transportError 9)]) :=
  ⟨⟨_, rfl, by decide⟩, ⟨_, rfl⟩, ⟨_, rfl⟩, ⟨_, rfl⟩, _, rfl, rfl⟩

/-- A next state of each kind the statement tells apart: H held and kept, H held and dropped, an open answered with a handle
by each of the two instructions that open, an open answered with an error, and OPEN = 0 throughout. -/
theorem witness_HandleIsOpaque :
    (∃ t, exec .clear (opened 6) = .next t ∧ t.bus.length = 6) ∧ (∃ t, exec .close (opened 0) = .next t) ∧
    (∃ t, exec .openBus (closedWith 0) = .next t ∧ t.isOpen = true) ∧
    (∃ t, exec .init (closedWith 36) = .next t ∧ t.isOpen = true) ∧
    (∃ t, exec .init { State.reset with busOpens := [.error 9] } = .next t ∧ t.isOpen = false) ∧
    (∃ t, exec (.setbl true) State.reset = .next t) :=
  ⟨⟨_, rfl, rfl⟩, ⟨_, rfl⟩, ⟨_, rfl, rfl⟩, ⟨_, rfl, rfl⟩, ⟨_, rfl, rfl⟩, _, rfl⟩

theorem witness_InitedMeansTheLastInitseqEndedOk :
    (∃ t, exec .initseq (failing 9) = .next t) ∧ (∃ t, exec .init (opened 36) = .next t) ∧
    (∃ t, exec .init (closedWith 36) = .next t) ∧ State.reset.inited = false ∧
    (∃ t, exec .close (opened 0) = .next t) ∧ (∃ t, exec .clear (opened 6) = .next t) :=
  ⟨⟨_, rfl⟩, ⟨_, rfl⟩, ⟨_, rfl⟩, rfl, ⟨_, rfl⟩, _, rfl⟩

theorem witness_GhostsAreNotRead : ∃ t, exec .initseq (opened 36) = .next t := ⟨_, rfl⟩

/-- One operation that ends with each error. -/
theorem witness_ErrorsFollowTheMatrix :
    (∃ t, exec (.movecursor 0 0) (opened 0) = .next t ∧ t.rsp = [] ++ [.err .rowOutOfRange]) ∧
    (∃ t, exec (.print 1 21 []) (opened 0) = .next t ∧ t.rsp = [] ++ [.err .colOutOfRange]) ∧
    (∃ t, exec .clear (failing 0) = .next t ∧ t.rsp = [] ++ [.err (.transportError 9)]) :=
  ⟨⟨_, rfl, rfl⟩, ⟨_, rfl, rfl⟩, _, rfl, rfl⟩

theorem witness_RangeErrorsArePrecise :
    (∃ t, exec (.movecursor 5 0) (opened 0) = .next t ∧ t.rsp = [] ++ [.err .rowOutOfRange]) ∧
    (∃ t, exec (.print 1 20 [0x41#8]) (opened 0) = .next t ∧ t.rsp = [] ++ [.err .colOutOfRange]) :=
  ⟨⟨_, rfl, rfl⟩, _, rfl, rfl⟩

theorem witness_ErrorsWriteNoState :
    (∃ t, exec .clear (failing 5) = .next t ∧ t.rsp = [] ++ [.err (.transportError 9)]) ∧
    (∃ t, exec .initseq (failing 0) = .next t ∧ t.rsp = [] ++ [.err (.transportError 9)]) :=
  ⟨⟨_, rfl, rfl⟩, _, rfl, rfl⟩

/-- CLOSE; CLEAR; INIT ending `Ok`, and failing from each of the three lifecycle states. -/
theorem witness_LifecycleTransitions :
    (∃ t, exec .close (opened 0) = .next t ∧ t.seq = .idle) ∧ (∃ t, exec .clear (opened 6) = .next t ∧ t.seq = .idle) ∧
    (∃ t, exec .init (closedWith 36) = .next t ∧ t.seq = .idle ∧ t.rsp = [] ++ [.ok]) ∧
    (let s := { failing 9 with inited := false };
      s.lifecycle = .openUninitialised ∧ ∃ t, exec .init s = .next t ∧ t.seq = .idle ∧ t.rsp ≠ [] ++ [.ok]) ∧
    ((failing 9).lifecycle = .ready ∧ ∃ t, exec .init (failing 9) = .next t ∧ t.seq = .idle ∧ t.rsp ≠ [] ++ [.ok]) ∧
    ((closedFailing 9).lifecycle = .closed ∧
      ∃ t, exec .init (closedFailing 9) = .next t ∧ t.seq = .idle ∧ t.rsp ≠ [] ++ [.ok]) :=
  ⟨⟨_, rfl, rfl⟩, ⟨_, rfl, rfl⟩, ⟨_, rfl, rfl, rfl⟩, ⟨rfl, _, rfl, rfl, by decide⟩, ⟨rfl, _, rfl, rfl, by decide⟩,
    rfl, _, rfl, rfl, by decide⟩

theorem witness_EveryTransmitIsFollowedByItsWait :
    isBareFrame .clear = false ∧ ∃ t, exec .clear (failing 3) = .next t := ⟨rfl, _, rfl⟩

theorem witness_RwIsNeverSet :
    (∃ t, exec (.strobe 0x49#8) (opened 2) = .next t) ∧ (0x49#8).getLsbD 1 = false ∧
      (∃ t, exec .initseq (opened 36) = .next t) := ⟨⟨_, rfl⟩, rfl, _, rfl⟩

theorem witness_CountsAndMinimumTimes :
    (∃ t, exec .init (closedWith 36) = .next t ∧ ∃ r, t.rsp = [] ++ [r] ∧ ∀ e, r ≠ .err e) ∧
    (∃ t, exec (.print 1 20 []) (opened 0) = .next t ∧ ∃ r, t.rsp = [] ++ [r] ∧ ∀ e, r ≠ .err e) :=
  ⟨⟨_, rfl, .ok, rfl, by simp⟩, _, rfl, .ok, rfl, by simp⟩

/-- A second PRINT after a first: the trace it starts from reads as three bytes. -/
theorem witness_BytesOfTheTraceAreTheWrites :
    ∃ s t l, exec (.print 1 0 [0x48#8, 0x49#8]) (opened 24) = .next s ∧ bytes s.trace = some l ∧ l.length = 3 ∧
      isBareFrame .clear = false ∧ (∀ f, Instr.clear ≠ .strobe f) ∧ exec .clear s = .next t ∧
      (∃ r, t.rsp = s.rsp ++ [r] ∧ ∀ e, r ≠ .err e) :=
  ⟨_, _, _, rfl, rfl, rfl, rfl, by simp, rfl, .ok, rfl, by simp⟩

theorem witness_BacklightLineFollowsTheLastFrame :
    ((opened 6 false).seq = .idle ∧ (opened 6 false).isOpen = true ∧ (opened 6 false).writesOk 6) ∧
    ((failing 0).seq = .idle ∧ (failing 0).isOpen = true ∧ 0 < 6 ∧ (failing 0).writeFailsAt 0 9) ∧
    ((failing 5).seq = .idle ∧ (failing 5).isOpen = true ∧ 5 < 6 ∧ (failing 5).writeFailsAt 5 9) ∧
    ∃ t, exec (.setbl true) (opened 0) = .next t :=
  ⟨⟨rfl, rfl, [], rfl⟩, ⟨rfl, rfl, by decide, [], rfl⟩, ⟨rfl, rfl, by decide, [], rfl⟩, _, rfl⟩

end Sys2Proof.Tests
end

namespace Sys2Proof.Machine

/-! ## Construction (10_state.md R22) -/

/-- Settles O7: construction tests the geometry and nothing else. -/
theorem constructionNeedsAWellFormedGeometry : Obligations.ConstructionNeedsAWellFormedGeometry :=
  fun _ => ⟨fun h => if_pos h, fun h => if_neg h⟩

/-! ## Which micro-operations a plan holds -/

/-- A transmit or a wait: a micro-operation that writes no state element of 10_state.md R21 but the timer. -/
def MicroOp.isSend : MicroOp → Bool
  | .busWrite _ | .wait _ => true
  | .busOpen _ _ | .busClose | .setBL _ | .setOPEN _ | .setINITED _ | .dropHandle => false

/-- A micro-operation that writes H (10_state.md R25). -/
def MicroOp.writesHandle : MicroOp → Bool
  | .busOpen _ _ | .dropHandle => true
  | .busWrite _ | .wait _ | .busClose | .setBL _ | .setOPEN _ | .setINITED _ => false

/-- The instructions whose plan holds transmits and waits only. -/
def onlySends : Instr → Bool
  | .init | .initseq | .setbl _ | .close | .openBus => false
  | _ => true

theorem MicroOp.ctl_of_isSend {m : MicroOp} (h : m.isSend = true) (c : Ctl) : m.ctl c = c := by
  cases m with
  | busWrite | wait => rfl
  | _ => cases h

theorem MicroOp.writesHandle_of_isSend {m : MicroOp} (h : m.isSend = true) : m.writesHandle = false := by
  cases m with
  | busWrite | wait => rfl
  | _ => cases h

theorem isSend_of_mem_sendSteps {d : Duration} {bs : List Byte} {m : MicroOp} (h : m ∈ sendSteps d bs) :
    m.isSend = true := by
  obtain ⟨b, -, hm⟩ := List.mem_flatMap.1 h
  rcases List.mem_pair.1 hm with rfl | rfl <;> rfl

/-- The plan of an instruction of `onlySends` holds what the name says. -/
theorem plan_isSend {i : Instr} {s : State} {todo : List MicroOp} (h : onlySends i = true)
    (hp : plan i s = .ok todo) : ∀ m ∈ todo, m.isSend = true := by
  cases i with
  | movecursor row col =>
    obtain ⟨v, -, rfl⟩ := plan_movecursor_ok hp
    exact fun m => isSend_of_mem_sendSteps
  | print row col text =>
    rcases plan_print_ok hp with ⟨-, rfl⟩ | ⟨-, v, -, rfl⟩
    · simp
    · exact fun m => isSend_of_mem_sendSteps
  | init | initseq | setbl | close | openBus => cases h
  | strobe | frame | frameCmdLo | frameCmdHi | frameDataLo | frameDataHi =>
    cases hp
    simp [strobeSteps, MicroOp.isSend]
  | _ =>
    cases hp
    exact fun m => isSend_of_mem_sendSteps

/-- Of these instructions FRAME alone runs without a handle, and its plan is empty (45_facade.md R167). -/
theorem plan_of_onlySends_closed {i : Instr} (s : State) (h : onlySends i = true) (hn : needsOpen i = false) :
    plan i s = .ok [] := by
  cases i with
  | frame => rfl
  | init | initseq | setbl | close | openBus => cases h
  | _ => cases hn

/-- The instructions that write a control bit or H are these five. -/
theorem cases_of_not_onlySends {i : Instr} (h : onlySends i = false) :
    i = .init ∨ i = .initseq ∨ (∃ on, i = .setbl on) ∨ i = .close ∨ i = .openBus := by
  cases i with
  | init | initseq | setbl | close | openBus => simp
  | _ => cases h

/-! ## What one micro-operation leaves of the other elements -/

/-- Beside `micro_done_effect`: the configuration, the timer (20_memory.md R54), the BUS transactions and H after a
micro-operation that succeeds. -/
theorem micro_done_frame {m : MicroOp} {s t : State} (h : micro m s = .done t) :
    t.cfg = s.cfg ∧ (s.timer = 0 → t.timer = 0) ∧ (∃ new, t.bus = s.bus ++ new) ∧
      (m.writesHandle = false → t.handle = s.handle) := by
  rcases micro_cases m s with ⟨_, _, _, _, rfl, -, e⟩ | ⟨_, _, _, _, rfl, -, e⟩ | ⟨_, _, rfl, -, e⟩ |
    ⟨_, _, rfl, -, e⟩ | ⟨_, _, _, rfl, -, e⟩ | ⟨_, rfl, -, e⟩ | ⟨_, rfl, e⟩ | ⟨rfl, e⟩ | ⟨_, rfl, e⟩ | ⟨_, rfl, e⟩ |
    ⟨_, rfl, e⟩ | ⟨rfl, e⟩ <;>
    (rw [e] at h; cases h <;>
      simp [MicroOp.writesHandle, waitFor, loadTimer, expireTimer, busClose])

/-- Beside `micro_raised_effect`: an error leaves the configuration, the timer and H, and adds to the BUS. -/
theorem micro_raised_frame {m : MicroOp} {s t : State} {e : Err} (h : micro m s = .raised e t) :
    t.cfg = s.cfg ∧ t.timer = s.timer ∧ (∃ new, t.bus = s.bus ++ new) ∧ t.handle = s.handle := by
  rcases micro_cases m s with ⟨_, _, _, _, -, -, e⟩ | ⟨_, _, _, _, -, -, e⟩ | ⟨_, _, -, -, e⟩ | ⟨_, _, -, -, e⟩ |
    ⟨_, _, _, -, -, e⟩ | ⟨_, -, -, e⟩ | ⟨_, -, e⟩ | ⟨-, e⟩ | ⟨_, -, e⟩ | ⟨_, -, e⟩ | ⟨_, -, e⟩ | ⟨-, e⟩ <;>
    (rw [e] at h; cases h <;> simp)

/-! ## The invariant (60_exceptions.md R210, 20_memory.md R53) -/

/-- The condition on what is left of a step list goes on to hold once its first micro-operation has succeeded. -/
theorem stepsOk_tail {m : MicroOp} {ms : List MicroOp} {c : Ctl} (h : stepsOk c.isOpen c.inited (m :: ms) = true) :
    stepsOk (m.ctl c).isOpen (m.ctl c).inited ms = true := by
  cases m with
  | busOpen | busWrite | busClose => exact (Bool.and_eq_true_iff.1 h).2
  | wait | setBL | setOPEN | setINITED | dropHandle => exact h

/-- At a request to the transport INITED is 1 only with OPEN. -/
theorem lifecycle_of_stepsOk_request {o i : Bool} {m : MicroOp} {ms : List MicroOp} (hm : m.isRequest = true)
    (h : stepsOk o i (m :: ms) = true) : i = true → o = true := by
  cases m <;> simp_all [stepsOk, MicroOp.isRequest]

/-- Transmits and waits ask for the handle, and nothing else. -/
theorem stepsOk_of_isSend {i : Bool} {ms : List MicroOp} (h : ∀ m ∈ ms, m.isSend = true) :
    stepsOk true i ms = true := by
  induction ms with
  | nil => rfl
  | cons m ms ih =>
    have hm := h m (.head _)
    have hms := ih fun m hm => h m (.tail _ hm)
    cases m <;> simp_all [stepsOk, MicroOp.isSend]

theorem stepsOk_initseqSteps (c : Config) (i : Bool) : stepsOk true i (initseqSteps c) = true := by
  simp [initseqSteps_eq, stepsOk, stepsOk_sendSteps]

/-- Every plan that exec runs meets the condition at its start. -/
theorem stepsOk_plan {i : Instr} {s : State} {todo : List MicroOp} (hp : plan i s = .ok todo)
    (hopen : needsOpen i = true → s.isOpen = true) (hclosed : i = .openBus → s.isOpen = false)
    (hlife : s.inited = true → s.isOpen = true) : stepsOk s.isOpen s.inited todo = true := by
  rcases hs : onlySends i
  · rcases cases_of_not_onlySends hs with rfl | rfl | ⟨on, rfl⟩ | rfl | rfl <;> cases hp
    · cases ho : s.isOpen
      · have hi : s.inited = false := by simpa [ho] using hlife
        simp [initSteps, openSteps, stepsOk, stepsOk_initseqSteps, hi]
      · exact stepsOk_initseqSteps s.cfg s.inited
    · rw [hopen rfl]
      exact stepsOk_initseqSteps s.cfg s.inited
    · cases hi : s.inited <;> simp_all [stepsOk]
    · cases ho : s.isOpen <;> simp_all [closeSteps, stepsOk]
    · have ho := hclosed rfl
      have hi : s.inited = false := by simpa [ho] using hlife
      simp [openSteps, stepsOk, ho, hi]
  · rcases hn : needsOpen i
    · rw [plan_of_onlySends_closed s hs hn] at hp
      cases hp
      cases hi : s.inited <;> simp_all [stepsOk]
    · rw [hopen hn]
      exact stepsOk_of_isSend (plan_isSend hs hp)

/-- A run from a state that meets the condition on its list leads to the invariant, however it goes. -/
theorem inv_runSeq {todo : List MicroOp} {s : State} (r : Response) (hg : s.cfg.geometryOk) (ht : s.timer = 0)
    (hok : stepsOk s.isOpen s.inited todo = true) : Inv (runSeq todo r s) := by
  refine runSeq_rule (Q := Inv)
    (P := fun ms u => u.cfg.geometryOk ∧ u.timer = 0 ∧ stepsOk u.ctl.isOpen u.ctl.inited ms = true)
    ?_ ?_ ?_ ?_ todo s ⟨hg, ht, hok⟩
  · rintro m ms u t ⟨hg, h0, hok⟩ hm
    obtain ⟨hcfg, htimer, -, -⟩ := micro_done_frame hm
    obtain ⟨-, hctl, -⟩ := micro_done_effect hm
    rw [hcfg, hctl]
    exact ⟨hg, htimer h0, stepsOk_tail hok⟩
  · rintro m ms u t e ⟨hg, h0, hok⟩ hm
    obtain ⟨hcfg, htimer, -, -⟩ := micro_raised_frame hm
    obtain ⟨hreq, -, -, hctl, -⟩ := micro_raised_effect hm
    rw [← hctl] at hok
    exact ⟨hcfg ▸ hg, lifecycle_of_stepsOk_request hreq hok, htimer.trans h0, rfl⟩
  · rintro m ms u ⟨hg, h0, hok⟩ hm
    obtain ⟨hreq, -, -⟩ := micro_unanswered_effect hm
    exact ⟨hg, lifecycle_of_stepsOk_request hreq hok, h0, Bool.and_eq_true_iff.2 ⟨hreq, hok⟩⟩
  · rintro u ⟨hg, h0, hok⟩
    have hlife : u.ctl.inited = true → u.ctl.isOpen = true := fun hi => by simpa [stepsOk, hi] using hok
    exact ⟨hg, hlife, h0, rfl⟩

/-- The step list of an operation in flight meets the condition. -/
theorem Inv.stepsOk_busy {s : State} {todo : List MicroOp} {r : Response} (h : Inv s) (hq : s.seq = .busy todo r) :
    stepsOk s.isOpen s.inited todo = true := by
  have hseq := h.seq
  cases todo with
  | nil => simp [State.seqOk, hq] at hseq
  | cons m ms =>
    simp only [State.seqOk, hq, Bool.and_eq_true] at hseq
    exact hseq.2

/-- Every instruction keeps the invariant. -/
theorem inv_exec {i : Instr} {s t : State} (h : Inv s) (hx : exec i s = .next t) : Inv t := by
  obtain ⟨⟨-, hopen, hclosed⟩, ⟨e, -, rfl⟩ | ⟨todo, hp, -, rfl⟩⟩ := exec_ran hx
  · exact ⟨h.geometry, h.lifecycle, h.timer, rfl⟩
  · exact inv_runSeq _ h.geometry h.timer (stepsOk_plan hp hopen hclosed h.lifecycle)

/-- Settles O15: the list an operation in flight has left keeps `stepsOk`, and so does every plan at its start. -/
theorem stepKeepsTheInvariant : Obligations.StepKeepsTheInvariant := by
  intro s t h hstep
  rcases step_cases hstep with ⟨todo, r, hq, rfl⟩ | ⟨-, -, rfl⟩ | ⟨hq, i, q, qs, -, -, hx⟩
  · exact inv_runSeq r h.geometry h.timer (h.stepsOk_busy hq)
  · exact h
  · refine inv_exec (s := s.setCmd qs) ⟨h.geometry, h.lifecycle, h.timer, ?_⟩ hx
    simp [State.seqOk, hq]

/-! ## History (20_memory.md R51, R60) -/

/-- A run extends the BUS transactions; the trace and the RSP transactions below. -/
theorem runSeq_bus_extends (todo : List MicroOp) (r : Response) (s : State) :
    ∃ new, (runSeq todo r s).bus = s.bus ++ new := by
  refine runSeq_rule (P := fun _ u => ∃ new, u.bus = s.bus ++ new) (Q := fun u => ∃ new, u.bus = s.bus ++ new)
    ?_ ?_ ?_ ?_ todo s ⟨[], (List.append_nil _).symm⟩
  · rintro m ms u t ⟨new, hu⟩ hm
    obtain ⟨-, -, ⟨more, ht⟩, -⟩ := micro_done_frame hm
    exact ⟨new ++ more, by rw [ht, hu, List.append_assoc]⟩
  · rintro m ms u t e ⟨new, hu⟩ hm
    obtain ⟨-, -, ⟨more, ht⟩, -⟩ := micro_raised_frame hm
    exact ⟨new ++ more, by rw [← List.append_assoc, ← hu, ← ht]; rfl⟩
  · exact fun _ _ _ hu _ => hu
  · exact fun _ hu => hu

theorem runSeq_trace_extends (todo : List MicroOp) (r : Response) (s : State) :
    ∃ new, (runSeq todo r s).trace = s.trace ++ new := by
  cases ran_runSeq todo r s with
  | ended _ _ htrace | aborted _ _ _ _ _ _ _ _ htrace | waiting _ _ _ _ _ _ _ htrace => exact ⟨_, htrace⟩

theorem runSeq_rsp_extends (todo : List MicroOp) (r : Response) (s : State) :
    ∃ new, (runSeq todo r s).rsp = s.rsp ++ new := by
  cases ran_runSeq todo r s with
  | ended _ hrsp | aborted _ _ _ _ _ _ _ hrsp => exact ⟨_, hrsp⟩
  | waiting _ _ _ _ _ _ hrsp => exact ⟨[], by rw [hrsp, List.append_nil]⟩

/-- The configuration stays and the three histories are extended. -/
def State.Extends (s t : State) : Prop :=
  t.cfg = s.cfg ∧ (∃ es, t.trace = s.trace ++ es) ∧ (∃ bs, t.bus = s.bus ++ bs) ∧ (∃ rs, t.rsp = s.rsp ++ rs)

theorem State.extends_refl (s : State) : s.Extends s :=
  ⟨rfl, ⟨[], (List.append_nil _).symm⟩, ⟨[], (List.append_nil _).symm⟩, ⟨[], (List.append_nil _).symm⟩⟩

theorem runSeq_extends (todo : List MicroOp) (r : Response) (s : State) : s.Extends (runSeq todo r s) :=
  ⟨(runSeq_cfg_cmd todo r s).1, runSeq_trace_extends todo r s, runSeq_bus_extends todo r s, runSeq_rsp_extends todo r s⟩

theorem raise_extends (e : Err) (s : State) : s.Extends (raise e s) :=
  ⟨rfl, ⟨[], (List.append_nil _).symm⟩, ⟨[], (List.append_nil _).symm⟩, ⟨_, rfl⟩⟩

theorem exec_extends {i : Instr} {s t : State} (h : exec i s = .next t) : s.Extends t := by
  obtain ⟨-, ⟨e, -, rfl⟩ | ⟨todo, -, -, rfl⟩⟩ := exec_ran h
  · exact raise_extends e s
  · exact runSeq_extends _ _ s

/-- Settles O16: a step is a run of a step list, an instruction, or nothing. -/
theorem stepKeepsConfigurationAndHistory : Obligations.StepKeepsConfigurationAndHistory := by
  intro s t hstep
  rcases step_cases hstep with ⟨todo, r, -, rfl⟩ | ⟨-, -, rfl⟩ | ⟨-, i, q, qs, -, -, hx⟩
  · exact runSeq_extends todo r s
  · exact State.extends_refl t
  · exact (exec_extends hx : (s.setCmd qs).Extends t)

/-! ## Who may write which state element (10_state.md section 2)

One lemma says which micro-operations a plan can hold; a state element that none of them writes is kept. -/

theorem mem_initseqSteps {c : Config} {m : MicroOp} (h : m ∈ initseqSteps c) :
    m.isSend = true ∨ (∃ v, m = .setINITED v) ∨ m = .setBL true := by
  rw [initseqSteps_eq] at h
  simp only [List.mem_cons, List.mem_append, List.not_mem_nil, or_false] at h
  rcases h with rfl | rfl | h | rfl | rfl
  · exact .inr (.inl ⟨_, rfl⟩)
  · exact .inr (.inr rfl)
  · exact .inl (isSend_of_mem_sendSteps h)
  · exact .inl rfl
  · exact .inr (.inl ⟨_, rfl⟩)

theorem mem_openSteps {c : Config} {m : MicroOp} (h : m ∈ openSteps c) :
    (∃ id addr, m = .busOpen id addr) ∨ m = .setOPEN true := by
  rcases List.mem_pair.1 h with rfl | rfl
  · exact .inl ⟨_, _, rfl⟩
  · exact .inr rfl

/-- What stands in the plan of an instruction: transmits and waits; the writes of INITSEQ, SETBL and CLOSE; the two
micro-operations of an open. -/
theorem mem_plan {i : Instr} {s : State} {todo : List MicroOp} {m : MicroOp} (hp : plan i s = .ok todo)
    (hm : m ∈ todo) :
    m.isSend = true ∨
    ((i = .init ∨ i = .initseq) ∧ ((∃ v, m = .setINITED v) ∨ m = .setBL true)) ∨
    (∃ on, i = .setbl on ∧ m = .setBL on) ∨
    (i = .close ∧ s.isOpen = true ∧ (m = .busClose ∨ m = .setOPEN false ∨ m = .dropHandle ∨ m = .setINITED false)) ∨
    ((i = .init ∧ s.isOpen = false ∨ i = .openBus) ∧ ((∃ id addr, m = .busOpen id addr) ∨ m = .setOPEN true)) := by
  rcases hs : onlySends i
  · rcases cases_of_not_onlySends hs with rfl | rfl | ⟨on, rfl⟩ | rfl | rfl <;> cases hp
    · rcases List.mem_append.1 hm with hm | hm
      · cases ho : s.isOpen
        · exact .inr (.inr (.inr (.inr ⟨.inl ⟨rfl, rfl⟩, mem_openSteps (by simpa [ho] using hm)⟩)))
        · simp [ho] at hm
      · rcases mem_initseqSteps hm with h | h
        · exact .inl h
        · exact .inr (.inl ⟨.inl rfl, h⟩)
    · rcases mem_initseqSteps hm with h | h
      · exact .inl h
      · exact .inr (.inl ⟨.inr rfl, h⟩)
    · simp_all
    · cases ho : s.isOpen <;> simp_all [closeSteps]
    · exact .inr (.inr (.inr (.inr ⟨.inr rfl, mem_openSteps hm⟩)))
  · exact .inl (plan_isSend hs hp m hm)

/-- A view of the control bits that no micro-operation of a list changes is the same after the list. -/
theorem ctlAfter_eq {α : Type} (f : Ctl → α) {ms : List MicroOp} (c : Ctl)
    (h : ∀ m ∈ ms, ∀ c, f (m.ctl c) = f c) : f (ctlAfter c ms) = f c := by
  induction ms generalizing c with
  | nil => rfl
  | cons m ms ih => exact (ih (m.ctl c) fun m hm => h m (.tail _ hm)).trans (h m (.head _) c)

/-- The same of a run, however it goes. -/
theorem runSeq_ctl_eq {α : Type} (f : Ctl → α) {todo : List MicroOp} (r : Response) (s : State)
    (h : ∀ m ∈ todo, ∀ c, f (m.ctl c) = f c) : f (runSeq todo r s).ctl = f s.ctl := by
  have part {pre : List MicroOp} {m : MicroOp} {post : List MicroOp} (htodo : todo = pre ++ m :: post) :
      f (ctlAfter s.ctl pre) = f s.ctl :=
    ctlAfter_eq f _ fun x hx => h x (htodo ▸ List.mem_append_left _ hx)
  cases ran_runSeq todo r s with
  | ended _ _ _ hctl => rw [hctl, ctlAfter_eq f _ h]
  | aborted _ _ _ _ htodo _ _ _ _ hctl | waiting _ _ _ htodo _ _ _ _ hctl => rw [hctl, part htodo]

/-- A run keeps H when no micro-operation of its list writes it. -/
theorem runSeq_handle_eq {todo : List MicroOp} (r : Response) (s : State)
    (h : ∀ m ∈ todo, m.writesHandle = false) : (runSeq todo r s).handle = s.handle := by
  refine runSeq_rule (P := fun ms u => (∀ m ∈ ms, m.writesHandle = false) ∧ u.handle = s.handle)
    (Q := fun u => u.handle = s.handle) ?_ ?_ ?_ ?_ todo s ⟨h, rfl⟩
  · rintro m ms u t ⟨hms, hu⟩ hm
    obtain ⟨-, -, -, ht⟩ := micro_done_frame hm
    exact ⟨fun x hx => hms x (.tail _ hx), (ht (hms m (.head _))).trans hu⟩
  · rintro m ms u t e ⟨-, hu⟩ hm
    obtain ⟨-, -, -, ht⟩ := micro_raised_frame hm
    exact ht.trans hu
  · exact fun _ _ _ hu _ => hu.2
  · exact fun _ hu => hu.2

/-- An instruction keeps a view of the control bits that its plan keeps, also where a check raises its error. -/
theorem exec_ctl_eq {α : Type} (f : Ctl → α) {i : Instr} {s t : State} (hx : exec i s = .next t)
    (h : ∀ todo, plan i s = .ok todo → ∀ m ∈ todo, ∀ c, f (m.ctl c) = f c) : f t.ctl = f s.ctl := by
  obtain ⟨-, ⟨e, -, rfl⟩ | ⟨todo, hp, -, rfl⟩⟩ := exec_ran hx
  · rfl
  · exact runSeq_ctl_eq f _ s (h todo hp)

theorem exec_handle_eq {i : Instr} {s t : State} (hx : exec i s = .next t)
    (h : ∀ todo, plan i s = .ok todo → ∀ m ∈ todo, m.writesHandle = false) : t.handle = s.handle := by
  obtain ⟨-, ⟨e, -, rfl⟩ | ⟨todo, hp, -, rfl⟩⟩ := exec_ran hx
  · rfl
  · exact runSeq_handle_eq _ s (h todo hp)

/-- Where an instruction's plan is a step list, exec runs it. -/
theorem exec_eq_runSeq {i : Instr} {s t : State} {todo : List MicroOp} (hx : exec i s = .next t)
    (hp : plan i s = .ok todo) : t = runSeq todo (planResponse i) s := by
  obtain ⟨-, -, -, ht⟩ := (exec_next_iff i s t).1 hx
  rw [ht, hp, runPlan_ok]

/-! ### The operations that open, initialise and close -/

theorem plan_close_of_closed {s : State} (ho : s.isOpen = false) : plan .close s = .ok [] := by
  simp [plan, closeSteps, ho]

theorem plan_close_of_open {s : State} (ho : s.isOpen = true) :
    plan .close s = .ok [.busClose, .setOPEN false, .dropHandle, .setINITED false] := by
  simp [plan, closeSteps, ho]

theorem plan_init_of_open {s : State} (ho : s.isOpen = true) : plan .init s = .ok (initseqSteps s.cfg) := by
  simp [plan, initSteps, ho]

theorem plan_init_of_closed {s : State} (ho : s.isOpen = false) :
    plan .init s = .ok (openSteps s.cfg ++ initseqSteps s.cfg) := by
  simp [plan, initSteps, ho]

theorem plan_openBus (s : State) : plan .openBus s = .ok (openSteps s.cfg ++ []) := rfl

theorem exec_init_of_open {s t : State} (ho : s.isOpen = true) (hx : exec .init s = .next t) :
    t = runSeq (initseqSteps s.cfg) .ok s :=
  exec_eq_runSeq hx (plan_init_of_open ho)

theorem exec_init_of_closed {s t : State} (ho : s.isOpen = false) (hx : exec .init s = .next t) :
    t = runSeq (openSteps s.cfg ++ initseqSteps s.cfg) .ok s :=
  exec_eq_runSeq hx (plan_init_of_closed ho)

theorem exec_openBus_eq {s t : State} (hx : exec .openBus s = .next t) :
    t = runSeq (openSteps s.cfg ++ []) .ok s :=
  exec_eq_runSeq hx (plan_openBus s)

theorem exec_close_of_closed {s t : State} (ho : s.isOpen = false) (hx : exec .close s = .next t) :
    t = finish .noStatus s :=
  exec_eq_runSeq hx (plan_close_of_closed ho)

theorem exec_close_of_open {s t : State} (ho : s.isOpen = true) (hx : exec .close s = .next t) :
    t = finish .noStatus ((((busClose s).setOpen false).dropHandle).setInited false) :=
  exec_eq_runSeq hx (plan_close_of_open ho)

/-- The state after an open that the transport has granted with the handle h (45_facade.md R160). -/
def State.granted (s : State) (h : Handle) (rest : List OpenAnswer) : State :=
  ((((s.setBusOpens rest).transact (.opened s.cfg.busId s.cfg.busAddr (.handle h))).setHandle h).record
    .opened).setOpen true

/-- The state after an open that the transport has answered with the error d, which ends the operation. -/
def State.denied (s : State) (d : Detail) (rest : List OpenAnswer) : State :=
  raise (.transportError d)
    (((s.setBusOpens rest).transact (.opened s.cfg.busId s.cfg.busAddr (.error d))).record .openFail)

section

variable {ms : List MicroOp} {r : Response} {s : State} {rest : List OpenAnswer}

theorem runSeq_openSteps_handle {h : Handle} (hb : s.busOpens = .handle h :: rest) :
    runSeq (openSteps s.cfg ++ ms) r s = runSeq ms r (s.granted h rest) := runSeq_busOpen_handle hb

theorem runSeq_openSteps_error {d : Detail} (hb : s.busOpens = .error d :: rest) :
    runSeq (openSteps s.cfg ++ ms) r s = s.denied d rest := runSeq_busOpen_error hb

theorem runSeq_openSteps_unanswered (hb : s.busOpens = []) :
    runSeq (openSteps s.cfg ++ ms) r s = s.setSeq (.busy (openSteps s.cfg ++ ms) r) := runSeq_busOpen_unanswered hb

end

/-- The three ways an operation that opens can go. -/
theorem runSeq_openSteps_cases (ms : List MicroOp) (r : Response) (s : State) :
    (∃ h rest, s.busOpens = .handle h :: rest ∧
      runSeq (openSteps s.cfg ++ ms) r s = runSeq ms r (s.granted h rest)) ∨
    (∃ d rest, s.busOpens = .error d :: rest ∧ runSeq (openSteps s.cfg ++ ms) r s = s.denied d rest) ∨
    (s.busOpens = [] ∧ runSeq (openSteps s.cfg ++ ms) r s = s.setSeq (.busy (openSteps s.cfg ++ ms) r)) := by
  rcases hb : s.busOpens with _ | ⟨h | d, rest⟩
  · exact .inr (.inr ⟨rfl, runSeq_openSteps_unanswered hb⟩)
  · exact .inl ⟨h, rest, rfl, runSeq_openSteps_handle hb⟩
  · exact .inr (.inl ⟨d, rest, rfl, runSeq_openSteps_error hb⟩)

/-! ### BL (R23) -/

/-- INITSEQ leaves BL at 1, also where a transmit fails: it writes it before the first (43_initializer.md R142). -/
theorem runSeq_initseqSteps_bl (c : Config) (r : Response) (s : State) :
    (runSeq (initseqSteps c) r s).bl = true := by
  rw [initseqSteps_eq, runSeq_setINITED, runSeq_setBL]
  refine runSeq_ctl_eq Ctl.bl r _ fun m hm k => ?_
  rcases List.mem_append.1 hm with h | h
  · rw [MicroOp.ctl_of_isSend (isSend_of_mem_sendSteps h)]
  · rcases List.mem_pair.1 h with rfl | rfl <;> rfl

/-- INIT leaves BL at 1 where the open is granted, and as it was elsewhere. -/
theorem exec_init_bl {s t : State} (hx : exec .init s = .next t) : t.bl = s.bl ∨ t.bl = true := by
  cases ho : s.isOpen
  · rw [exec_init_of_closed ho hx]
    rcases runSeq_openSteps_cases (initseqSteps s.cfg) .ok s with ⟨h, rest, -, e⟩ | ⟨d, rest, -, e⟩ | ⟨-, e⟩ <;> rw [e]
    · exact .inr (runSeq_initseqSteps_bl _ _ _)
    · exact .inl rfl
    · exact .inl rfl
  · rw [exec_init_of_open ho hx]
    exact .inr (runSeq_initseqSteps_bl _ _ _)

/-- No other instruction has a write of BL in its plan. -/
theorem exec_bl_eq {i : Instr} {s t : State} (hx : exec i s = .next t) (hsetbl : ∀ on, i ≠ .setbl on)
    (hinitseq : i ≠ .initseq) (hinit : i ≠ .init) : t.bl = s.bl := by
  refine exec_ctl_eq Ctl.bl hx fun todo hp m hm c => ?_
  rcases mem_plan hp hm with h | ⟨rfl | rfl, -⟩ | ⟨on, rfl, -⟩ | ⟨-, -, rfl | rfl | rfl | rfl⟩ |
    ⟨-, ⟨_, _, rfl⟩ | rfl⟩
  · rw [MicroOp.ctl_of_isSend h]
  · exact absurd rfl hinit
  · exact absurd rfl hinitseq
  · exact absurd rfl (hsetbl on)
  all_goals rfl

/-- Settles O46: the writes of BL stand in the plans of SETBL, INITSEQ and INIT only. -/
theorem backlightIsWrittenBySetblAndInitseqOnly : Obligations.BacklightIsWrittenBySetblAndInitseqOnly := by
  refine fun i s t hx => ⟨?_, ?_, ?_, exec_bl_eq hx⟩
  · rintro on rfl
    rw [exec_eq_runSeq hx rfl]
    rfl
  · rintro rfl
    rw [exec_eq_runSeq hx rfl]
    exact runSeq_initseqSteps_bl _ _ _
  · rintro rfl
    exact exec_init_bl hx

/-! ### OPEN and H (R24, R25) -/

theorem initseqSteps_keeps_isOpen {c : Config} {m : MicroOp} (hm : m ∈ initseqSteps c) (k : Ctl) :
    (m.ctl k).isOpen = k.isOpen := by
  rcases mem_initseqSteps hm with h | ⟨v, rfl⟩ | rfl
  · rw [MicroOp.ctl_of_isSend h]
  · rfl
  · rfl

/-- OPEN is written by an open and by CLOSE only. -/
theorem exec_isOpen_eq {i : Instr} {s t : State} (hx : exec i s = .next t) (hclose : i ≠ .close)
    (hopenBus : i ≠ .openBus) (hinit : i = .init → s.isOpen = true) : t.isOpen = s.isOpen := by
  refine exec_ctl_eq Ctl.isOpen hx fun todo hp m hm c => ?_
  rcases mem_plan hp hm with h | ⟨-, ⟨v, rfl⟩ | rfl⟩ | ⟨on, -, rfl⟩ | ⟨hi, -⟩ | ⟨⟨hi, ho⟩ | hi, -⟩
  · rw [MicroOp.ctl_of_isSend h]
  · rfl
  · rfl
  · rfl
  · exact absurd hi hclose
  · simp [hinit hi] at ho
  · exact absurd hi hopenBus

/-- H is written in the plan of an open and of a CLOSE that closes, only. -/
theorem plan_keeps_handle {i : Instr} {s : State} {todo : List MicroOp} {m : MicroOp}
    (hclosed : i = .openBus → s.isOpen = false)
    (hno : ¬((i = .openBus ∧ s.isOpen = false) ∨ (i = .init ∧ s.isOpen = false) ∨ (i = .close ∧ s.isOpen = true)))
    (hp : plan i s = .ok todo) (hm : m ∈ todo) : m.writesHandle = false := by
  rcases mem_plan hp hm with h | ⟨-, ⟨v, rfl⟩ | rfl⟩ | ⟨on, -, rfl⟩ | ⟨hi, ho, -⟩ | ⟨h | hi, -⟩
  · exact MicroOp.writesHandle_of_isSend h
  · rfl
  · rfl
  · rfl
  · exact absurd (.inr (.inr ⟨hi, ho⟩)) hno
  · exact absurd (.inr (.inl h)) hno
  · exact absurd (.inl ⟨hi, hclosed hi⟩) hno

theorem exec_handle_ne {i : Instr} {s t : State} (hx : exec i s = .next t) (hne : t.handle ≠ s.handle) :
    (i = .openBus ∧ s.isOpen = false) ∨ (i = .init ∧ s.isOpen = false) ∨ (i = .close ∧ s.isOpen = true) := by
  by_contra hno
  obtain ⟨⟨-, -, hclosed⟩, -⟩ := exec_ran hx
  exact hne (exec_handle_eq hx fun todo hp m hm => plan_keeps_handle hclosed hno hp hm)

theorem exec_close_isOpen {s t : State} (hx : exec .close s = .next t) : t.isOpen = false := by
  cases ho : s.isOpen
  · rw [exec_close_of_closed ho hx]
    exact ho
  · rw [exec_close_of_open ho hx]
    rfl

/-- OPEN starts from a closed block, and leaves OPEN 1 exactly when it ends `Ok`: the open was granted. -/
theorem exec_openBus_isOpen {s t : State} (hx : exec .openBus s = .next t) :
    s.isOpen = false ∧ (t.isOpen = true ↔ t.rsp = s.rsp ++ [.ok]) := by
  obtain ⟨⟨-, -, hclosed⟩, -⟩ := exec_ran hx
  have ho := hclosed rfl
  refine ⟨ho, ?_⟩
  rw [exec_openBus_eq hx]
  rcases runSeq_openSteps_cases [] .ok s with ⟨h, rest, -, e⟩ | ⟨d, rest, -, e⟩ | ⟨-, e⟩ <;>
    rw [e] <;> simp [State.granted, State.denied, raise, finish, ho]

/-- Settles O47: the writes of OPEN and H stand in the plans of OPEN, INIT and CLOSE only. -/
theorem openAndHandleAreWrittenByOpenAndCloseOnly : Obligations.OpenAndHandleAreWrittenByOpenAndCloseOnly := by
  refine fun i s t hx => ⟨exec_handle_ne hx, ?_, ?_, ?_, ?_, ?_⟩
  · rintro rfl
    exact exec_close_isOpen hx
  · rintro rfl
    exact exec_openBus_isOpen hx
  · rintro rfl ho
    rw [exec_isOpen_eq hx nofun nofun fun _ => ho, ho]
  · exact fun hclose hopenBus hinit => exec_isOpen_eq hx hclose hopenBus fun hi => absurd hi hinit
  · rintro d rfl hrsp
    obtain ⟨-, hiff⟩ := exec_openBus_isOpen hx
    simpa [hrsp] using hiff

/-! ### INITED (R32) -/

/-- The transmits of INITSEQ from INITED 0: the 1 is written after the last of them, and `Ok` follows. -/
theorem runSeq_init36_inited (s : State) (d : Duration) (h0 : s.inited = false) :
    let t := runSeq (sendSteps s.cfg.tDelay init36 ++ [.wait d, .setINITED true]) .ok s
    t.inited = true ↔ t.rsp = s.rsp ++ [.ok] := by
  rcases writeAnswers_cases 36 s.busWrites with ⟨rest, h⟩ | ⟨k, e, rest, hk, h⟩ | ⟨k, hk, h⟩
  · rw [runSeq_send_ok init36 (rest := rest) h]
    simp [finish, waitFor, loadTimer, expireTimer, State.afterSent]
  · rw [runSeq_send_error init36 hk h]
    simp [raise, finish, State.afterSent, State.afterFailed, h0]
  · rw [runSeq_send_unanswered init36 hk h]
    simp [State.afterSent, h0]

/-- INITSEQ leaves INITED 1 exactly when it ends `Ok`. -/
theorem runSeq_initseqSteps_inited (s : State) :
    (runSeq (initseqSteps s.cfg) .ok s).inited = true ↔ (runSeq (initseqSteps s.cfg) .ok s).rsp = s.rsp ++ [.ok] := by
  rw [initseqSteps_eq, runSeq_setINITED, runSeq_setBL]
  exact runSeq_init36_inited ((s.setInited false).setBl true) s.cfg.tSettleInit rfl

/-- INIT from a closed block with INITED 0: the open counts as a part of the operation that can fail. -/
theorem exec_init_inited_of_closed {s t : State} (ho : s.isOpen = false) (hi : s.inited = false)
    (hx : exec .init s = .next t) : t.inited = true ↔ t.rsp = s.rsp ++ [.ok] := by
  rw [exec_init_of_closed ho hx]
  rcases runSeq_openSteps_cases (initseqSteps s.cfg) .ok s with ⟨h, rest, -, e⟩ | ⟨d, rest, -, e⟩ | ⟨-, e⟩ <;> rw [e]
  · exact runSeq_initseqSteps_inited (s.granted h rest)
  · simp [State.denied, raise, finish, hi]
  · simp [hi]

theorem exec_inited_eq {i : Instr} {s t : State} (hx : exec i s = .next t) (hinitseq : i ≠ .initseq)
    (hinit : i ≠ .init) (hclose : i ≠ .close) : t.inited = s.inited := by
  refine exec_ctl_eq Ctl.inited hx fun todo hp m hm c => ?_
  rcases mem_plan hp hm with h | ⟨rfl | rfl, -⟩ | ⟨on, -, rfl⟩ | ⟨hi, -⟩ | ⟨-, ⟨_, _, rfl⟩ | rfl⟩
  · rw [MicroOp.ctl_of_isSend h]
  · exact absurd rfl hinit
  · exact absurd rfl hinitseq
  · rfl
  · exact absurd hi hclose
  · rfl
  · rfl

/-- Settles O49: INITED is written 0 at the start of INITSEQ and 1 at its end, and 0 by CLOSE. -/
theorem initedMeansTheLastInitseqEndedOk : Obligations.InitedMeansTheLastInitseqEndedOk := by
  have ofOpen {s t : State} (ho : s.isOpen = true) (hx : exec .init s = .next t) :
      t.inited = true ↔ t.rsp = s.rsp ++ [.ok] := by
    rw [exec_init_of_open ho hx]
    exact runSeq_initseqSteps_inited s
  refine fun i s t hx => ⟨?_, ?_, ?_, ?_, exec_inited_eq hx⟩
  · rintro rfl
    rw [exec_eq_runSeq hx rfl]
    exact runSeq_initseqSteps_inited s
  · rintro rfl ho
    exact ofOpen ho hx
  · rintro rfl hi
    cases ho : s.isOpen
    · exact exec_init_inited_of_closed ho hi hx
    · exact ofOpen ho hx
  · rintro rfl ho
    rw [exec_close_of_open ho hx]
    rfl

/-! ## Two runs of one step list side by side

What the block does not read is said by a relation between two states that one micro-operation keeps: from related
states both runs take the same turns. -/

/-- Both came to the same, in related states. -/
inductive MicroResult.Rel (R : State → State → Prop) : MicroResult → MicroResult → Prop where
  | done {s s' : State} (h : R s s') : Rel R (.done s) (.done s')
  | raised {s s' : State} (e : Err) (h : R s s') : Rel R (.raised e s) (.raised e s')
  | unanswered : Rel R .unanswered .unanswered

/-- A relation that the micro-operations of a list keep, and the writes of SEQ and RSP, is kept by the list's runs. -/
theorem runSeq_lockstep {R : State → State → Prop} (hfinish : ∀ r s s', R s s' → R (finish r s) (finish r s'))
    (hseq : ∀ q s s', R s s' → R (s.setSeq q) (s'.setSeq q)) {todo : List MicroOp}
    (hmicro : ∀ m ∈ todo, ∀ s s', R s s' → MicroResult.Rel R (micro m s) (micro m s')) (r : Response)
    {s s' : State} (h : R s s') : R (runSeq todo r s) (runSeq todo r s') := by
  induction todo generalizing s s' with
  | nil => exact hfinish r s s' h
  | cons m ms ih =>
    have hm := hmicro m (.head _) s s' h
    rw [runSeq, runSeq]
    generalize micro m s = x, micro m s' = x' at hm
    cases hm with
    | done h => exact ih (fun m hm => hmicro m (.tail _ hm)) h
    | raised e h => exact hfinish (.err e) _ _ h
    | unanswered => exact hseq _ s s' h

/-- A plan depends on the configuration, BL and OPEN only. -/
theorem plan_eq_of_agree {s s' : State} (i : Instr) (hcfg : s'.cfg = s.cfg) (hbl : s'.bl = s.bl)
    (hopen : s'.isOpen = s.isOpen) : plan i s' = plan i s := by
  cases i <;> simp only [plan, hcfg, hbl, hopen]

/-- An instruction that answers a next state answers one, by the same plan, wherever SEQ, OPEN, the configuration and BL
are the same. -/
theorem exec_of_agree {i : Instr} {s s' t : State} (hx : exec i s = .next t) (hseq : s'.seq = s.seq)
    (hcfg : s'.cfg = s.cfg) (hbl : s'.bl = s.bl) (hopen : s'.isOpen = s.isOpen) :
    exec i s' = .next (runPlan (plan i s) (planResponse i) s') := by
  obtain ⟨hidle, hneeds, hclosed, -⟩ := (exec_next_iff i s t).1 hx
  rw [← plan_eq_of_agree i hcfg hbl hopen]
  exact exec_of_ready (hseq ▸ hidle) (hopen ▸ hneeds) (hopen ▸ hclosed)

/-! ### The ghosts (10_state.md R32, R33) -/

/-- The second state is the first but for the ghosts, and both traces have grown by the same events, from `tr` and from
`es`. -/
def GhostsApart (tr es : List Event) (s s' : State) : Prop :=
  ∃ g new, s.trace = tr ++ new ∧ s' = { s with inited := g, trace := es ++ new }

theorem micro_ghostsApart {tr es : List Event} (m : MicroOp) {s s' : State} (h : GhostsApart tr es s s') :
    MicroResult.Rel (GhostsApart tr es) (micro m s) (micro m s') := by
  obtain ⟨g, new, htr, rfl⟩ := h
  cases m with
  | busOpen id addr =>
    rcases hb : s.busOpens with _ | ⟨h | d, rest⟩ <;> simp only [micro, busOpen, hb]
    · exact .unanswered
    · exact .done ⟨g, new ++ [.opened], by simp [htr], by rw [← List.append_assoc]; rfl⟩
    · exact .raised _ ⟨g, new ++ [.openFail], by simp [htr], by rw [← List.append_assoc]; rfl⟩
  | busWrite b =>
    rcases hb : s.busWrites with _ | ⟨_ | d, rest⟩ <;> simp only [micro, busWrite, hb]
    · exact .unanswered
    · exact .done ⟨g, new ++ [.tx b], by simp [htr], by rw [← List.append_assoc]; rfl⟩
    · exact .raised _ ⟨g, new ++ [.txFail b], by simp [htr], by rw [← List.append_assoc]; rfl⟩
  | wait d =>
    exact .done ⟨g, new ++ [.delay d], by simp [waitFor, loadTimer, expireTimer, htr], by rw [← List.append_assoc]; rfl⟩
  | busClose => exact .done ⟨g, new ++ [.closed], by simp [busClose, htr], by rw [← List.append_assoc]; rfl⟩
  | setINITED v => exact .done ⟨v, new, htr, rfl⟩
  | setBL | setOPEN | dropHandle => exact .done ⟨g, new, htr, rfl⟩

theorem finish_ghostsApart {tr es : List Event} (r : Response) (s s' : State) (h : GhostsApart tr es s s') :
    GhostsApart tr es (finish r s) (finish r s') := by
  obtain ⟨g, new, htr, rfl⟩ := h
  exact ⟨g, new, htr, rfl⟩

theorem setSeq_ghostsApart {tr es : List Event} (q : Seq) (s s' : State) (h : GhostsApart tr es s s') :
    GhostsApart tr es (s.setSeq q) (s'.setSeq q) := by
  obtain ⟨g, new, htr, rfl⟩ := h
  exact ⟨g, new, htr, rfl⟩

theorem runPlan_ghostsApart {tr es : List Event} (p : Except Err (List MicroOp)) (r : Response) {s s' : State}
    (h : GhostsApart tr es s s') : GhostsApart tr es (runPlan p r s) (runPlan p r s') := by
  cases p with
  | error e => exact finish_ghostsApart (.err e) s s' h
  | ok todo =>
    exact runSeq_lockstep finish_ghostsApart setSeq_ghostsApart (fun m _ _ _ => micro_ghostsApart m) r h

/-- Settles O50: two states that differ in the ghosts alone go on to differ in them alone. -/
theorem ghostsAreNotRead : Obligations.GhostsAreNotRead := by
  intro i s t g es hx
  have hx' := exec_of_agree (s' := { s with inited := g, trace := es }) hx rfl rfl rfl rfl
  obtain ⟨-, -, -, rfl⟩ := (exec_next_iff i s t).1 hx
  have hstart : GhostsApart s.trace es s { s with inited := g, trace := es } := ⟨g, [], by simp, by simp⟩
  obtain ⟨g', new, htrace, hend⟩ := runPlan_ghostsApart (plan i s) (planResponse i) hstart
  exact ⟨_, new, hx', htrace, by rw [hend], by rw [hend]⟩

/-! ### H (10_state.md R25) -/

/-- The second state is the first but for H, which is `h`, and the BUS transactions added to `b`, which pass `h`. -/
def HandleApart (b : List BusTransaction) (h : Handle) (s s' : State) : Prop :=
  ∃ new, s.bus = b ++ new ∧ s' = { s with handle := h, bus := b ++ new.map (BusTransaction.withHandle h) }

theorem micro_handleApart {b : List BusTransaction} {h : Handle} {m : MicroOp} (hm : m.writesHandle = false)
    {s s' : State} (hs : HandleApart b h s s') : MicroResult.Rel (HandleApart b h) (micro m s) (micro m s') := by
  obtain ⟨new, hbus, rfl⟩ := hs
  cases m with
  | busOpen | dropHandle => cases hm
  | busWrite v =>
    rcases hb : s.busWrites with _ | ⟨_ | d, rest⟩ <;> simp only [micro, busWrite, hb]
    · exact .unanswered
    · exact .done ⟨new ++ [.wrote s.handle v .ok], by simp [hbus], by rw [List.map_append, ← List.append_assoc]; rfl⟩
    · exact .raised _
        ⟨new ++ [.wrote s.handle v (.error d)], by simp [hbus], by rw [List.map_append, ← List.append_assoc]; rfl⟩
  | busClose =>
    exact .done ⟨new ++ [.closed s.handle], by simp [busClose, hbus], by rw [List.map_append, ← List.append_assoc]; rfl⟩
  | wait | setBL | setOPEN | setINITED => exact .done ⟨new, hbus, rfl⟩

theorem finish_handleApart {b : List BusTransaction} {h : Handle} (r : Response) (s s' : State)
    (hs : HandleApart b h s s') : HandleApart b h (finish r s) (finish r s') := by
  obtain ⟨new, hbus, rfl⟩ := hs
  exact ⟨new, hbus, rfl⟩

theorem setSeq_handleApart {b : List BusTransaction} {h : Handle} (q : Seq) (s s' : State)
    (hs : HandleApart b h s s') : HandleApart b h (s.setSeq q) (s'.setSeq q) := by
  obtain ⟨new, hbus, rfl⟩ := hs
  exact ⟨new, hbus, rfl⟩

theorem runPlan_handleApart {b : List BusTransaction} {h : Handle} {p : Except Err (List MicroOp)} (r : Response)
    (hp : ∀ todo, p = .ok todo → ∀ m ∈ todo, m.writesHandle = false) {s s' : State} (hs : HandleApart b h s s') :
    HandleApart b h (runPlan p r s) (runPlan p r s') := by
  cases p with
  | error e => exact finish_handleApart (.err e) s s' hs
  | ok todo =>
    exact runSeq_lockstep finish_handleApart setSeq_handleApart
      (fun m hm _ _ => micro_handleApart (hp todo rfl m hm)) r hs

/-- While the block is open every instruction but CLOSE passes the handle on and keeps it. -/
theorem exec_withHandle_of_open {i : Instr} {s t : State} (h : Handle) (ho : s.isOpen = true) (hc : i ≠ .close)
    (hx : exec i s = .next t) :
    ∃ new, t.bus = s.bus ++ new ∧ exec i { s with handle := h } = .next
      { t with handle := h, bus := s.bus ++ new.map (BusTransaction.withHandle h) } := by
  have hx' := exec_of_agree (s' := { s with handle := h }) hx rfl rfl rfl rfl
  obtain ⟨-, -, hclosed, rfl⟩ := (exec_next_iff i s t).1 hx
  have hno : ¬((i = .openBus ∧ s.isOpen = false) ∨ (i = .init ∧ s.isOpen = false) ∨
      (i = .close ∧ s.isOpen = true)) := by simp [ho, hc]
  have hstart : HandleApart s.bus h s { s with handle := h } := ⟨[], by simp, by simp⟩
  obtain ⟨new, hbus, hend⟩ := runPlan_handleApart (planResponse i)
    (fun todo hp m hm => plan_keeps_handle hclosed hno hp hm) hstart
  exact ⟨new, hbus, by rw [hx', hend]⟩

/-- CLOSE passes the handle to the transport and drops it. -/
theorem exec_withHandle_of_close {s t : State} (h : Handle) (ho : s.isOpen = true) (hx : exec .close s = .next t) :
    t.bus = s.bus ++ [.closed s.handle] ∧
      exec .close { s with handle := h } = .next { t with bus := s.bus ++ [.closed h] } := by
  have hx' := exec_of_agree (s' := { s with handle := h }) hx rfl rfl rfl rfl
  rw [plan_close_of_open ho] at hx'
  rw [exec_close_of_open ho hx]
  exact ⟨rfl, hx'⟩

/-- A closed block does nothing on the BUS in an instruction that does not open it. -/
theorem exec_withHandle_of_closed {i : Instr} {s t : State} (h : Handle) (ho : s.isOpen = false)
    (hi : ¬(i = .init ∨ i = .openBus)) (hx : exec i s = .next t) :
    t.isOpen = false ∧ t.bus = s.bus ∧ exec i { s with handle := h } = .next { t with handle := h } := by
  have hx' := exec_of_agree (s' := { s with handle := h }) hx rfl rfl rfl rfl
  obtain ⟨-, hneeds, -, rfl⟩ := (exec_next_iff i s t).1 hx
  rcases hs : onlySends i
  · rcases cases_of_not_onlySends hs with rfl | rfl | ⟨on, rfl⟩ | rfl | rfl
    · exact absurd (.inl rfl) hi
    · simp [ho, needsOpen] at hneeds
    · exact ⟨ho, rfl, hx'⟩
    · rw [hx', plan_close_of_closed ho]
      exact ⟨ho, rfl, rfl⟩
    · exact absurd (.inr rfl) hi
  · have hn : needsOpen i = false := by simpa [ho] using hneeds
    rw [hx', plan_of_onlySends_closed s hs hn]
    exact ⟨ho, rfl, rfl⟩

/-- An open overwrites H where the transport grants a handle, and keeps it elsewhere. -/
theorem runSeq_openSteps_withHandle {ms : List MicroOp} (r : Response) {s : State} (h : Handle)
    (ho : s.isOpen = false) (hms : ∀ m ∈ ms, ∀ c, (m.ctl c).isOpen = c.isOpen) :
    let t := runSeq (openSteps s.cfg ++ ms) r s
    runSeq (openSteps s.cfg ++ ms) r { s with handle := h } =
      { t with handle := if t.isOpen then t.handle else h } := by
  intro t
  rcases runSeq_openSteps_cases ms r s with ⟨k, rest, hb, e⟩ | ⟨d, rest, hb, e⟩ | ⟨hb, e⟩
  · have hopen : t.isOpen = true :=
      (congrArg State.isOpen e).trans (runSeq_ctl_eq Ctl.isOpen r (s.granted k rest) hms)
    rw [if_pos hopen]
    exact (runSeq_openSteps_handle (s := { s with handle := h }) hb).trans e.symm
  · have hclosed : t.isOpen = false := (congrArg State.isOpen e).trans ho
    rw [if_neg (ne_true_of_eq_false hclosed), show t = s.denied d rest from e]
    exact runSeq_openSteps_error (s := { s with handle := h }) hb
  · have hclosed : t.isOpen = false := (congrArg State.isOpen e).trans ho
    rw [if_neg (ne_true_of_eq_false hclosed), show t = s.setSeq _ from e]
    exact runSeq_openSteps_unanswered (s := { s with handle := h }) hb

/-- The two instructions that open a closed block. -/
theorem exec_withHandle_of_opening {i : Instr} {s t : State} (h : Handle) (ho : s.isOpen = false)
    (hi : i = .init ∨ i = .openBus) (hx : exec i s = .next t) :
    exec i { s with handle := h } = .next { t with handle := if t.isOpen then t.handle else h } := by
  have hx' := exec_of_agree (s' := { s with handle := h }) hx rfl rfl rfl rfl
  rcases hi with rfl | rfl
  · rw [plan_init_of_closed ho] at hx'
    rw [hx', exec_init_of_closed ho hx]
    exact congrArg _ (runSeq_openSteps_withHandle .ok h ho fun m => initseqSteps_keeps_isOpen)
  · rw [plan_openBus] at hx'
    rw [hx', exec_openBus_eq hx]
    exact congrArg _ (runSeq_openSteps_withHandle .ok h ho nofun)

/-- Settles O48: a handle held is passed on, a handle not held is not looked at, and an open overwrites it. -/
theorem handleIsOpaque : Obligations.HandleIsOpaque := by
  intro i s t h hx
  by_cases ho : s.isOpen = true
  · by_cases hc : i = .close
    · subst hc
      obtain ⟨hbus, hx'⟩ := exec_withHandle_of_close h ho hx
      exact ⟨_, hbus, by simpa [ho, BusTransaction.withHandle] using hx'⟩
    · obtain ⟨new, hbus, hx'⟩ := exec_withHandle_of_open h ho hc hx
      exact ⟨new, hbus, by simpa [ho, hc] using hx'⟩
  · have ho : s.isOpen = false := by simpa using ho
    by_cases hi : i = .init ∨ i = .openBus
    · obtain ⟨-, -, ⟨new, hbus⟩, -⟩ := exec_extends hx
      exact ⟨new, hbus, by simpa [ho, ← hbus] using exec_withHandle_of_opening h ho hi hx⟩
    · obtain ⟨hopen, hbus, hx'⟩ := exec_withHandle_of_closed h ho hi hx
      exact ⟨[], by simpa using hbus, by simpa [ho, hopen, ← hbus] using hx'⟩

end Sys2Proof.Machine

namespace Sys2Proof.Machine

/-! ## One step of the block (20_memory.md R60)

What a step does by the position of SEQ: nothing with no request, the oldest request, or the operation in flight. -/

theorem step_of_no_request {s : State} (hq : s.seq = .idle) (hc : s.cmd = []) : step s = .next s := by
  simp [step, fetch, hq, hc]

section

variable {s : State} {q : Request} {qs : List Request} (hq : s.seq = .idle) (hc : s.cmd = q :: qs)
include hq hc

theorem fetch_of_request : fetch s = .request q (s.setCmd qs) := by
  simp [fetch, hq, hc]

theorem step_of_decoded {i : Instr} (hd : decode q = .ok i) (hwf : i.wf s.cfg = true) :
    step s = exec i (s.setCmd qs) := by
  simp [step, fetch_of_request hq hc, hd, hwf]

/-- An operand that does not fit the binding (92_eei_decisions.md D9). -/
theorem step_of_too_wide {i : Instr} (hd : decode q = .ok i) (hwf : i.wf s.cfg = false) :
    step s = .refused .operandTooWide := by
  simp [step, fetch_of_request hq hc, hd, hwf]

/-- A word that the decoder rejects (30_encoding.md R94, R95). -/
theorem step_of_undecodable {e : DecodeError} (hd : decode q = .error e) : step s = .refused (.undecodable e) := by
  simp [step, fetch_of_request hq hc, hd]

end

theorem step_of_busy {s : State} {todo : List MicroOp} {r : Response} (hq : s.seq = .busy todo r) :
    step s = .next (runSeq todo r s) := by
  simp [step, fetch, hq]

/-- Settles O8: an idle block finds no request, or the oldest one, which decodes or does not. -/
theorem stepRunsTheDecodedInstruction : Obligations.StepRunsTheDecodedInstruction :=
  fun _ hq => ⟨step_of_no_request hq, fun _ _ hc =>
    ⟨fun _ => step_of_decoded hq hc, fun _ => step_of_too_wide hq hc, fun _ => step_of_undecodable hq hc⟩⟩

/-! ## The CMD channel (R60, 92_eei_decisions.md D20) -/

theorem exec_of_busy {s : State} {todo : List MicroOp} {r : Response} (i : Instr) (hq : s.seq = .busy todo r) :
    exec i s = .refused .busy := by
  rw [exec_eq, whenIdle_busy hq]

/-- No instruction takes a request or offers one. -/
theorem exec_cmd_eq {i : Instr} {s t : State} (hx : exec i s = .next t) : t.cmd = s.cmd := by
  obtain ⟨-, ⟨e, -, rfl⟩ | ⟨todo, -, -, rfl⟩⟩ := exec_ran hx
  · rfl
  · exact (runSeq_cfg_cmd todo _ s).2

/-- Settles O9: the step itself takes the oldest request, and what it runs leaves the channel alone. -/
theorem requestsAreHeldOffWhileBusy : Obligations.RequestsAreHeldOffWhileBusy := by
  refine ⟨fun s t hstep => ?_, fun i s todo r hq => exec_of_busy i hq⟩
  rcases step_cases hstep with ⟨todo, r, hq, rfl⟩ | ⟨hq, hc, rfl⟩ | ⟨hq, i, q, qs, hc, -, hx⟩
  · rw [if_neg (by simp [hq])]
    exact (runSeq_cfg_cmd todo r s).2
  · rw [if_pos hq, hc, List.tail_nil]
  · rw [if_pos hq, hc, List.tail_cons]
    exact exec_cmd_eq hx

/-! ## Requests without an answer (R52, R53) -/

/-- Settles O10: the request goes back to the head of SEQ, where it already stands. -/
theorem unansweredRequestsHoldTheBlock : Obligations.UnansweredRequestsHoldTheBlock := by
  constructor
  · intro s b ms r hq hw
    rw [step_of_busy hq, runSeq_busWrite_unanswered hw, ← hq]
    rfl
  · intro s id addr ms r hq ho
    rw [step_of_busy hq, runSeq_busOpen_unanswered ho, ← hq]
    rfl

/-- No micro-operation reads or writes SEQ. -/
theorem micro_setSeq (m : MicroOp) (s : State) (q : Seq) :
    MicroResult.Rel (fun u u' => u' = u.setSeq q) (micro m s) (micro m (s.setSeq q)) := by
  cases m with
  | busOpen id addr =>
    rcases hb : s.busOpens with _ | ⟨h | d, rest⟩ <;> simp only [micro, busOpen, State.setSeq_busOpens, hb]
    · exact .unanswered
    · exact .done rfl
    · exact .raised _ rfl
  | busWrite b =>
    rcases hb : s.busWrites with _ | ⟨_ | d, rest⟩ <;> simp only [micro, busWrite, State.setSeq_busWrites, hb]
    · exact .unanswered
    · exact .done rfl
    · exact .raised _ rfl
  | wait | busClose | setBL | setOPEN | setINITED | dropHandle => exact .done rfl

/-- A run writes SEQ where it stops, whatever SEQ was before. -/
theorem runSeq_setSeq (todo : List MicroOp) (r : Response) (s : State) (q : Seq) :
    runSeq todo r (s.setSeq q) = runSeq todo r s := by
  induction todo generalizing s with
  | nil => rfl
  | cons m ms ih =>
    have hm := micro_setSeq m s q
    rw [runSeq, runSeq]
    generalize micro m s = x, micro m (s.setSeq q) = x' at hm
    cases hm with
    | done h => rw [h]; exact ih _
    | raised e h => rw [h]; rfl
    | unanswered => rfl

/-- The transport gives more answers, to be used after those there are (R52). -/
def State.more (s : State) (opens : List OpenAnswer) (writes : List WriteAnswer) : State :=
  { s with busOpens := s.busOpens ++ opens, busWrites := s.busWrites ++ writes }

/-- A micro-operation that succeeds uses the first answer and does not see those behind it. -/
theorem micro_more_of_done {m : MicroOp} {s t : State} (h : micro m s = .done t) (opens : List OpenAnswer)
    (writes : List WriteAnswer) : micro m (s.more opens writes) = .done (t.more opens writes) := by
  cases m with
  | busOpen id addr =>
    rcases hb : s.busOpens with _ | ⟨k | d, rest⟩ <;> simp only [micro, busOpen, hb] at h <;> cases h
    simp [micro, busOpen, State.more, hb]
    rfl
  | busWrite b =>
    rcases hb : s.busWrites with _ | ⟨_ | d, rest⟩ <;> simp only [micro, busWrite, hb] at h <;> cases h
    simp [micro, busWrite, State.more, hb]
    rfl
  | wait | busClose | setBL | setOPEN | setINITED | dropHandle => cases h; rfl

/-- A run that waits, resumed with more answers, ends where it would have with all of them from the start. -/
theorem runSeq_resume {todo todo' : List MicroOp} {r r' : Response} {s : State}
    (hq : (runSeq todo r s).seq = .busy todo' r') (opens : List OpenAnswer) (writes : List WriteAnswer) :
    runSeq todo' r' ((runSeq todo r s).more opens writes) = runSeq todo r (s.more opens writes) := by
  induction todo generalizing s with
  | nil => cases hq
  | cons m ms ih =>
    rcases hm : micro m s with u | ⟨e, u⟩ | _ <;> simp only [runSeq, hm] at hq ⊢
    · rw [micro_more_of_done hm]
      exact ih hq
    · cases hq
    · cases hq
      exact runSeq_setSeq (m :: ms) r (s.more opens writes) _

theorem Seq.busy_of_ne_idle {q : Seq} (h : q ≠ .idle) : ∃ todo r, q = .busy todo r := by
  cases q with
  | idle => exact absurd rfl h
  | busy todo r => exact ⟨todo, r, rfl⟩

/-- Settles O11: the operation in flight is resumed, and its plan does not depend on the answers. -/
theorem lateAnswersLeadToTheSameState : Obligations.LateAnswersLeadToTheSameState := by
  intro i s t opens writes hx hbusy
  have hx' : exec i (s.more opens writes) = .next (runPlan (plan i s) (planResponse i) (s.more opens writes)) :=
    exec_of_agree hx rfl rfl rfl rfl
  obtain ⟨-, ⟨e, -, rfl⟩ | ⟨todo, hp, -, rfl⟩⟩ := exec_ran hx
  · exact absurd rfl hbusy
  · obtain ⟨todo', r', hq⟩ := Seq.busy_of_ne_idle hbusy
    have hmore : ((runSeq todo (planResponse i) s).more opens writes).seq = .busy todo' r' := hq
    rw [hp, runPlan_ok, ← runSeq_resume hq, ← step_of_busy hmore] at hx'
    exact hx'.symm

/-! ## The events of an operation that ends without an error (20_memory.md R51, R69) -/

/-- An instruction that ends without an error has left the events of its whole plan. -/
theorem trace_of_ended {i : Instr} {s t : State} (hx : exec i s = .next t)
    (hr : ∃ r, t.rsp = s.rsp ++ [r] ∧ ∀ e, r ≠ .err e) :
    ∃ todo, plan i s = .ok todo ∧ t.trace = s.trace ++ todo.flatMap okEvents := by
  obtain ⟨r, hrsp, hok⟩ := hr
  obtain ⟨-, ⟨e, -, rfl⟩ | ⟨todo, hp, hran, -⟩⟩ := exec_ran hx
  · have hre : Response.err e = r := by simpa [raise, finish] using hrsp
    exact absurd hre.symm (hok e)
  · refine ⟨todo, hp, ?_⟩
    cases hran with
    | ended _ _ htrace => exact htrace
    | aborted _ _ _ d _ _ _ hrsp' =>
      have hre : Response.err (.transportError d) = r := by simpa [hrsp'] using hrsp
      exact absurd hre.symm (hok _)
    | waiting _ _ _ _ _ _ hrsp' => simp [hrsp'] at hrsp

/-- The mode whose register-select bit is `rs` (30_encoding.md R84). -/
def modeOfRs (rs : Bool) : Mode := if rs then .data else .command

@[simp] theorem modeOfRs_true : modeOfRs true = .data := rfl

@[simp] theorem modeOfRs_false : modeOfRs false = .command := rfl

@[simp] theorem modeOfRs_eq_data (rs : Bool) : decide (modeOfRs rs = .data) = rs := by cases rs <;> rfl

@[simp] theorem modeOfRs_decide (m : Mode) : modeOfRs (decide (m = .data)) = m := by cases m <;> rfl

/-- The bytes transmitted by WRITEs of (register select, value) under one backlight (42_bytewriter.md R131). -/
def wireBytes (bl : Bool) (ws : List (Bool × Byte)) : List Byte :=
  ws.flatMap fun w => sixBytes w.2 (modeOfRs w.1) bl

@[simp] theorem wireBytes_nil (bl : Bool) : wireBytes bl [] = [] := rfl

@[simp] theorem wireBytes_cons (bl rs : Bool) (v : Byte) (ws : List (Bool × Byte)) :
    wireBytes bl ((rs, v) :: ws) = sixBytes v (modeOfRs rs) bl ++ wireBytes bl ws := rfl

theorem wireBytes_map (bl rs : Bool) (vs : List Byte) :
    wireBytes bl (vs.map fun v => (rs, v)) = vs.flatMap fun v => sixBytes v (modeOfRs rs) bl := by
  simp [wireBytes, List.flatMap_map]

theorem wireBytes_length (bl : Bool) (ws : List (Bool × Byte)) : (wireBytes bl ws).length = 6 * ws.length := by
  induction ws with
  | nil => rfl
  | cons w ws ih => rw [wireBytes_cons, List.length_append, ih, sixBytes_length, List.length_cons]; omega

/-- The six commands of INIT_SEQ as WRITEs (43_initializer.md R141). -/
theorem wireBytes_initSeq : wireBytes true (initSeq.map fun b => (false, b)) = init36 :=
  (wireBytes_map true false initSeq).trans initSeq_sixBytes

/-- The plan of an instruction that transmits through WRITE alone: its WRITEs, each transmit with its wait. -/
theorem plan_eq_sendSteps {i : Instr} {s : State} {todo : List MicroOp} (hp : plan i s = .ok todo)
    (hs : onlySends i = true) (hb : isBareFrame i = false) (hst : ∀ f, i ≠ .strobe f) :
    todo = sendSteps s.cfg.tDelay (wireBytes s.bl (logicalBytes s.cfg i)) := by
  cases i with
  | movecursor row col =>
    obtain ⟨v, hv, rfl⟩ := plan_movecursor_ok hp
    simp [logicalBytes, hv]
  | print row col text =>
    rcases plan_print_ok hp with ⟨rfl, rfl⟩ | ⟨hne, v, hv, rfl⟩
    · simp [logicalBytes]
    · simp [logicalBytes, hv, hne, wireBytes_map]
  | frameCmdLo | frameCmdHi | frameDataLo | frameDataHi => cases hb
  | init | initseq | setbl | close | openBus => cases hs
  | strobe f => exact absurd rfl (hst f)
  | _ =>
    cases hp
    simp [logicalBytes]

/-- The events of an INIT that ends `Ok`: that of the open, if there is one, then those of INITSEQ (R161). -/
theorem okEvents_initSteps (c : Config) (isOpen : Bool) :
    (initSteps c isOpen).flatMap okEvents
      = (if isOpen then [] else [.opened]) ++ (pacedTx c.tDelay init36 ++ [.delay c.tSettleInit]) := by
  rw [initSteps, List.flatMap_append, okEvents_initseqSteps]
  cases isOpen <;> rfl

theorem okEvents_closeSteps (isOpen : Bool) :
    (closeSteps isOpen).flatMap okEvents = if isOpen then [.closed] else [] := by
  cases isOpen <;> rfl

theorem okEvents_strobeSteps (d : Duration) (f : Byte) :
    (strobeSteps d f).flatMap okEvents = .delay d :: pacedTx d [enableSet f, enableClear f] := rfl

/-! ## Every transmit and its wait (R71) -/

theorem paced_append {d : Duration} {a b : List Event} (ha : paced d a = true) (hb : paced d b = true) :
    paced d (a ++ b) = true := by
  induction a with
  | nil => exact hb
  | cons e a ih =>
    cases e with
    | tx c =>
      obtain ⟨hhead, htail⟩ := Bool.and_eq_true_iff.1 ha
      cases a with
      | nil => cases hhead
      | cons e' a => exact Bool.and_eq_true_iff.2 ⟨hhead, ih htail⟩
    | _ => exact ih ha

/-- What stands before an event that is no wait ends with no transmit that still lacks its wait. -/
theorem paced_before {d : Duration} {a b : List Event} {e : Event} (he : e ≠ .delay d)
    (h : paced d (a ++ e :: b) = true) : paced d a = true := by
  induction a with
  | nil => rfl
  | cons x a ih =>
    cases x with
    | tx c =>
      obtain ⟨hhead, htail⟩ := Bool.and_eq_true_iff.1 h
      cases a with
      | nil => exact absurd (by simpa using hhead) he
      | cons y a => exact Bool.and_eq_true_iff.2 ⟨hhead, ih htail⟩
    | _ => exact ih h

@[simp] theorem paced_pacedTx (d : Duration) (bs : List Byte) : paced d (pacedTx d bs) = true := by
  induction bs with
  | nil => rfl
  | cons b bs ih => simpa [pacedTx, paced] using ih

/-- A request leaves no wait, whether it succeeds or fails. -/
theorem events_of_request {m : MicroOp} (h : m.isRequest = true) :
    (∃ e, okEvents m = [e] ∧ ∀ d, e ≠ .delay d) ∧ ∀ d, paced d [failEvent m] = true := by
  cases m with
  | busOpen | busWrite => exact ⟨⟨_, rfl, nofun⟩, fun _ => rfl⟩
  | _ => cases h

/-- A step list whose events are paced leaves paced events, however its run goes. -/
theorem paced_runSeq {d : Duration} {todo : List MicroOp} (r : Response) (s : State)
    (h : paced d (todo.flatMap okEvents) = true) :
    ∃ es, (runSeq todo r s).trace = s.trace ++ es ∧ paced d es = true := by
  have part {pre : List MicroOp} {m : MicroOp} {post : List MicroOp} (htodo : todo = pre ++ m :: post)
      (hm : m.isRequest = true) : paced d (pre.flatMap okEvents) = true := by
    obtain ⟨⟨e, he, hne⟩, -⟩ := events_of_request hm
    rw [htodo, List.flatMap_append, List.flatMap_cons, he] at h
    exact paced_before (hne d) h
  cases ran_runSeq todo r s with
  | ended _ _ htrace => exact ⟨_, htrace, h⟩
  | aborted pre m post _ htodo hm _ _ htrace =>
    exact ⟨_, htrace, paced_append (part htodo hm) ((events_of_request hm).2 d)⟩
  | waiting pre m post htodo hm _ _ htrace => exact ⟨_, htrace, part htodo hm⟩

/-- The events of every plan but that of a bare frame are paced. -/
theorem paced_plan {i : Instr} {s : State} {todo : List MicroOp} (hb : isBareFrame i = false)
    (hp : plan i s = .ok todo) : paced s.cfg.tDelay (todo.flatMap okEvents) = true := by
  have hinitseq (c : Config) : paced c.tDelay (pacedTx c.tDelay init36 ++ [.delay c.tSettleInit]) = true :=
    paced_append (paced_pacedTx _ _) rfl
  rcases hs : onlySends i
  · rcases cases_of_not_onlySends hs with rfl | rfl | ⟨on, rfl⟩ | rfl | rfl <;> cases hp
    · rw [okEvents_initSteps]
      exact paced_append (by cases s.isOpen <;> rfl) (hinitseq s.cfg)
    · rw [okEvents_initseqSteps]
      exact hinitseq s.cfg
    · rfl
    · rw [okEvents_closeSteps]
      cases s.isOpen <;> rfl
    · rfl
  · by_cases hst : ∃ f, i = .strobe f
    · obtain ⟨f, rfl⟩ := hst
      cases hp
      rw [okEvents_strobeSteps]
      exact paced_pacedTx _ _
    · rw [plan_eq_sendSteps hp hs hb (not_exists.1 hst), okEvents_sendSteps]
      exact paced_pacedTx _ _

/-- Settles O56: the events of a plan are paced, and a run stops at requests only, never between a transmit and its
wait. -/
theorem everyTransmitIsFollowedByItsWait : Obligations.EveryTransmitIsFollowedByItsWait := by
  intro i s t hx hb
  obtain ⟨-, ⟨e, -, rfl⟩ | ⟨todo, hp, -, rfl⟩⟩ := exec_ran hx
  · exact ⟨[], (List.append_nil _).symm, rfl⟩
  · exact paced_runSeq _ s (paced_plan hb hp)

/-! ## Counts and minimum times (R72, 70_reset_and_hazards.md R260) -/

/-- Per WRITE, six transmits and six waits. -/
theorem measures_of_writes {i : Instr} {s : State} {todo : List MicroOp} (hp : plan i s = .ok todo)
    (hs : onlySends i = true) (hb : isBareFrame i = false) (hst : ∀ f, i ≠ .strobe f) :
    countTx (todo.flatMap okEvents) = 6 * (logicalBytes s.cfg i).length ∧
      minDuration (todo.flatMap okEvents) = 6 * (logicalBytes s.cfg i).length * s.cfg.tDelay := by
  rw [plan_eq_sendSteps hp hs hb hst, okEvents_sendSteps, countTx_pacedTx, minDuration_pacedTx, wireBytes_length]
  exact ⟨rfl, rfl⟩

/-- An INITSEQ has 36 transmits with their waits and the settle delay; what an INIT does before it has neither. -/
theorem measures_of_initseq (c : Config) {es : List Event} (htx : countTx es = 0) (hmin : minDuration es = 0) :
    countTx (es ++ (pacedTx c.tDelay init36 ++ [.delay c.tSettleInit])) = 36 ∧
      minDuration (es ++ (pacedTx c.tDelay init36 ++ [.delay c.tSettleInit])) = 36 * c.tDelay + c.tSettleInit := by
  rw [countTx_append, countTx_append, countTx_pacedTx, minDuration_append, minDuration_append, minDuration_pacedTx,
    htx, hmin, init36_length, Nat.zero_add, Nat.zero_add]
  exact ⟨rfl, rfl⟩

theorem measures_of_init (c : Config) (isOpen : Bool) :
    countTx ((initSteps c isOpen).flatMap okEvents) = 36 ∧
      minDuration ((initSteps c isOpen).flatMap okEvents) = 36 * c.tDelay + c.tSettleInit ∧
      (isOpen = false → ((initSteps c isOpen).flatMap okEvents).head? = some .opened) ∧
      ((initSteps c isOpen).flatMap okEvents).getLast? = some (.delay c.tSettleInit) := by
  rw [okEvents_initSteps]
  obtain ⟨htx, hmin⟩ := measures_of_initseq c (es := if isOpen then [] else [.opened])
    (by cases isOpen <;> rfl) (by cases isOpen <;> rfl)
  exact ⟨htx, hmin, by rintro rfl; rfl, by rw [← List.append_assoc, List.getLast?_concat]⟩

/-- A STROBE waits before its two transmits as well (41_strobe.md R120). -/
theorem measures_of_strobe (d : Duration) (f : Byte) :
    countTx ((strobeSteps d f).flatMap okEvents) = 2 ∧ minDuration ((strobeSteps d f).flatMap okEvents) = 3 * d := by
  rw [okEvents_strobeSteps, minDuration, minDuration_pacedTx]
  exact ⟨rfl, (Nat.add_comm _ _).trans (Nat.succ_mul 2 d).symm⟩

/-- Settles O58: the events of an operation that ends without an error are those of its plan. -/
theorem countsAndMinimumTimes : Obligations.CountsAndMinimumTimes := by
  intro i s t hx hr
  obtain ⟨todo, hp, htrace⟩ := trace_of_ended hx hr
  refine ⟨todo.flatMap okEvents, htrace, ?_⟩
  cases i with
  | frame | setbl | openBus | frameCmdLo | frameCmdHi | frameDataLo | frameDataHi =>
    cases hp
    simp [okEvents, openSteps, countTx, txBytes, minDuration]
  | close =>
    cases hp
    exact okEvents_closeSteps s.isOpen
  | strobe f =>
    cases hp
    exact measures_of_strobe s.cfg.tDelay f
  | initseq =>
    cases hp
    rw [okEvents_initseqSteps]
    exact measures_of_initseq s.cfg (es := []) rfl rfl
  | init =>
    cases hp
    exact measures_of_init s.cfg s.isOpen
  | print row col text =>
    have hm := measures_of_writes hp rfl rfl nofun
    rcases plan_print_ok hp with ⟨rfl, rfl⟩ | ⟨hne, v, hv, -⟩
    · rfl
    · simpa [logicalBytes, hv, hne] using hm
  | movecursor row col =>
    obtain ⟨v, hv, -⟩ := plan_movecursor_ok hp
    simpa [logicalBytes, hv] using measures_of_writes hp rfl rfl nofun
  | _ => exact measures_of_writes hp rfl rfl nofun

/-! ## The frames of a WRITE by their fields (30_encoding.md R80, R85, R86) -/

theorem highFrame_eq_frameByte (v : Byte) (m : Mode) (bl : Bool) :
    highFrame v m bl = frameByte (v.extractLsb' 4 4) bl false (decide (m = .data)) := by
  cases m <;> cases bl <;> revert v <;> decide

theorem lowFrame_eq_frameByte (v : Byte) (m : Mode) (bl : Bool) :
    lowFrame v m bl = frameByte (v.extractLsb' 0 4) bl false (decide (m = .data)) := by
  cases m <;> cases bl <;> revert v <;> decide

/-- Enable is bit 2 (R87). -/
theorem frameByte_enable (d : Nibble) (bl rs : Bool) :
    frameByte d bl false rs ||| 0x04#8 = frameByte d bl true rs := by
  revert d bl rs; decide

/-- The mask of R68 takes enable away and leaves every other line. -/
theorem frameByte_mask (d : Nibble) (bl e rs : Bool) : frameByte d bl e rs &&& 0xFB#8 = frameByte d bl false rs := by
  revert d bl e rs; decide

theorem nibbles_append (v : Byte) : v.extractLsb' 4 4 ++ v.extractLsb' 0 4 = v := by
  revert v; decide

/-- The three frames that carry one nibble: setup, enable set, enable clear (42_bytewriter.md R131). -/
def nibbleFrames (d : Nibble) (bl rs : Bool) : List Byte :=
  [frameByte d bl false rs, frameByte d bl true rs, frameByte d bl false rs]

/-- A WRITE sends the three frames of the high nibble, then those of the low one (20_memory.md R58). -/
theorem sixBytes_eq_frameBytes (v : Byte) (m : Mode) (bl : Bool) :
    sixBytes v m bl = nibbleFrames (v.extractLsb' 4 4) bl (decide (m = .data))
      ++ nibbleFrames (v.extractLsb' 0 4) bl (decide (m = .data)) := by
  simp [sixBytes, nibbleFrames, highFrame_eq_frameByte, lowFrame_eq_frameByte, frameByte_enable]

/-! ## The trace from the controller's side (20_memory.md R68, R69) -/

/-- `bytes` of a trace, as a function of its transmits alone. -/
def bytesIn (ts : List Transmit) : Option (List (Bool × Byte)) :=
  if ts.all (·.ok) && !openStrobeIn ts then pairNibbles (strobesIn ts) else none

theorem bytes_eq (es : List Event) : bytes es = bytesIn (transmits es) := rfl

/-- `bytesIn` reads only lists of successful transmits without an open strobe. -/
theorem bytesIn_eq_some {ts : List Transmit} {l : List (Bool × Byte)} :
    bytesIn ts = some l ↔
      ts.all (·.ok) = true ∧ openStrobeIn ts = false ∧ pairNibbles (strobesIn ts) = some l := by
  simp only [bytesIn, Option.ite_none_right_eq_some, Bool.and_eq_true, Bool.not_eq_true', and_assoc]

/-- Where successful transmits leave no strobe open the last of them has enable clear: no strobe reaches from it into
what follows. -/
theorem strobes_append {a : List Transmit} (hok : a.all (·.ok) = true) (hopen : openStrobeIn a = false)
    (b : List Transmit) :
    strobesIn (a ++ b) = strobesIn a ++ strobesIn b ∧ openStrobeIn (a ++ b) = openStrobeIn b := by
  induction a with
  | nil => exact ⟨rfl, rfl⟩
  | cons x xs ih =>
    obtain ⟨hx, hxs⟩ := Bool.and_eq_true_iff.1 hok
    obtain ⟨hhead, htail⟩ := Bool.or_eq_false_iff.1 hopen
    obtain ⟨hstrobes, hopens⟩ := ih hxs htail
    cases xs with
    | nil =>
      have he : frameE x.byte = false := by simpa [hx] using hhead
      have hno (next : Option Transmit) : strobeAt x next = none := by cases next <;> simp [strobeAt, he]
      simp [strobesIn, openStrobeIn, hno, he]
    | cons y ys =>
      constructor
      · cases h : strobeAt x (some y) <;> simp_all [strobesIn]
      · simp_all [openStrobeIn]

/-- Pairs go on where a list that pairs up ends. -/
theorem pairNibbles_append {a b : List (Bool × Nibble)} {l m : List (Bool × Byte)} (ha : pairNibbles a = some l)
    (hb : pairNibbles b = some m) : pairNibbles (a ++ b) = some (l ++ m) := by
  induction a using pairNibbles.induct generalizing l with
  | case1 => cases ha; exact hb
  | case2 p => cases ha
  | case3 rs hi lo ps ih =>
    simp only [pairNibbles, if_true, Option.map_eq_some_iff] at ha
    obtain ⟨k, hk, rfl⟩ := ha
    simp [pairNibbles, ih hk]
  | case4 rs hi rs' lo ps hne => simp [pairNibbles, hne] at ha

/-- What is read of two traces one after the other is read one after the other. -/
theorem bytesIn_append {a b : List Transmit} {l m : List (Bool × Byte)} (ha : bytesIn a = some l)
    (hb : bytesIn b = some m) : bytesIn (a ++ b) = some (l ++ m) := by
  obtain ⟨haok, haopen, hal⟩ := bytesIn_eq_some.1 ha
  obtain ⟨hbok, hbopen, hbm⟩ := bytesIn_eq_some.1 hb
  obtain ⟨hstrobes, hopens⟩ := strobes_append haok haopen b
  rw [bytesIn_eq_some, List.all_append, haok, hbok, hopens, hbopen, hstrobes]
  exact ⟨rfl, rfl, pairNibbles_append hal hbm⟩

/-- The three frames of a nibble show one completed strobe and leave none open. -/
theorem strobes_of_nibble (d : Nibble) (bl rs : Bool) :
    let ts := (nibbleFrames d bl rs).map (Transmit.mk true)
    ts.all (·.ok) = true ∧ openStrobeIn ts = false ∧ strobesIn ts = [(rs, d)] := by
  simp [nibbleFrames, openStrobeIn, strobesIn, strobeAt, frameByte_mask]

/-- The six bytes of one WRITE are read as its value (42_bytewriter.md R131). -/
theorem bytesIn_sixBytes (bl rs : Bool) (v : Byte) :
    bytesIn ((sixBytes v (modeOfRs rs) bl).map (Transmit.mk true)) = some [(rs, v)] := by
  obtain ⟨hok, hopen, hhigh⟩ := strobes_of_nibble (v.extractLsb' 4 4) bl rs
  obtain ⟨lok, lopen, hlow⟩ := strobes_of_nibble (v.extractLsb' 0 4) bl rs
  obtain ⟨hstrobes, hopens⟩ := strobes_append hok hopen
    ((nibbleFrames (v.extractLsb' 0 4) bl rs).map (Transmit.mk true))
  rw [sixBytes_eq_frameBytes, modeOfRs_eq_data, List.map_append, bytesIn_eq_some, List.all_append, hok, lok, hopens,
    lopen, hstrobes, hhigh, hlow]
  simp [pairNibbles, nibbles_append]

theorem bytesIn_wireBytes (bl : Bool) (ws : List (Bool × Byte)) :
    bytesIn ((wireBytes bl ws).map (Transmit.mk true)) = some ws := by
  induction ws with
  | nil => rfl
  | cons w ws ih =>
    obtain ⟨rs, v⟩ := w
    rw [wireBytes_cons, List.map_append]
    exact bytesIn_append (bytesIn_sixBytes bl rs v) ih

/-- Through WRITE alone, a plan transmits the six bytes of each of the instruction's WRITEs, under one backlight. -/
theorem transmits_plan {i : Instr} {s : State} {todo : List MicroOp} (hp : plan i s = .ok todo)
    (hb : isBareFrame i = false) (hst : ∀ f, i ≠ .strobe f) :
    ∃ bl, transmits (todo.flatMap okEvents) = (wireBytes bl (logicalBytes s.cfg i)).map (Transmit.mk true) := by
  have hinitseq (c : Config) : transmits (pacedTx c.tDelay init36 ++ [.delay c.tSettleInit])
      = (wireBytes true (initSeq.map fun b => (false, b))).map (Transmit.mk true) := by
    rw [transmits_append, transmits_pacedTx, wireBytes_initSeq]
    exact List.append_nil _
  rcases hs : onlySends i
  · rcases cases_of_not_onlySends hs with rfl | rfl | ⟨on, rfl⟩ | rfl | rfl <;> cases hp
    · refine ⟨true, ?_⟩
      rw [okEvents_initSteps, transmits_append, hinitseq]
      cases s.isOpen <;> rfl
    · refine ⟨true, ?_⟩
      rw [okEvents_initseqSteps]
      exact hinitseq s.cfg
    · exact ⟨true, rfl⟩
    · refine ⟨true, ?_⟩
      rw [okEvents_closeSteps]
      cases s.isOpen <;> rfl
    · exact ⟨true, rfl⟩
  · refine ⟨s.bl, ?_⟩
    rw [plan_eq_sendSteps hp hs hb hst, okEvents_sendSteps, transmits_pacedTx]

/-- Settles O59: each WRITE adds six transmits, which are read as its value whatever was read before. -/
theorem bytesOfTheTraceAreTheWrites : Obligations.BytesOfTheTraceAreTheWrites := by
  intro i s t l hx hb hst hr hl
  obtain ⟨todo, hp, htrace⟩ := trace_of_ended hx hr
  obtain ⟨bl, hsent⟩ := transmits_plan hp hb hst
  rw [bytes_eq, htrace, transmits_append, hsent]
  exact bytesIn_append hl (bytesIn_wireBytes bl _)

/-! ## The expander's lines (R70, 10_state.md R42) -/

/-- The low frame on the lines: the last byte of a WRITE (40_framer.md R110). -/
theorem pinsOf_lowFrame (v : Byte) (m : Mode) (bl : Bool) :
    pinsOf (lowFrame v m bl) = ⟨v.extractLsb' 0 4, bl, false, false, decide (m = .data)⟩ := by
  simp [lowFrame_eq_frameByte, pinsOf]

theorem pins_append_sixBytes (es : List Event) (d : Duration) (v : Byte) (m : Mode) (bl : Bool) :
    pins (es ++ pacedTx d (sixBytes v m bl))
      = some ⟨v.extractLsb' 0 4, bl, false, false, decide (m = .data)⟩ := by
  have hlast : lastTx (es ++ pacedTx d (sixBytes v m bl)) = some (lowFrame v m bl) :=
    lastTx_append_pacedTx es d ((sixBytes v m bl).take 5) (lowFrame v m bl)
  rw [pins, hlast, Option.map_some, pinsOf_lowFrame]

theorem pins_append_txFail (es : List Event) (b : Byte) : pins (es ++ [.txFail b]) = none := by
  simp [pins]

/-- WRITE of an idle open block is a run of its six bytes. -/
theorem exec_write_of_ready {s : State} (v : Byte) (m : Mode) (hq : s.seq = .idle) (ho : s.isOpen = true) :
    exec (.write v m) s = .next (runSeq (sendSteps s.cfg.tDelay (sixBytes v m s.bl) ++ []) .ok s) := by
  rw [List.append_nil]
  exact exec_of_ready hq (fun _ => ho) nofun

/-- Settles O60: the last transmit of a WRITE is its low frame, or the one that failed, and SETBL transmits nothing. -/
theorem backlightLineFollowsTheLastFrame : Obligations.BacklightLineFollowsTheLastFrame := by
  refine ⟨?_, ?_, ?_⟩
  · rintro v m s hq ho ⟨rest, hw⟩
    refine ⟨_, exec_write_of_ready v m hq ho, ?_⟩
    rw [runSeq_send_ok (sixBytes v m s.bl) hw]
    exact pins_append_sixBytes s.trace s.cfg.tDelay v m s.bl
  · rintro v m s k d hq ho hk ⟨rest, hw⟩
    refine ⟨_, exec_write_of_ready v m hq ho, ?_⟩
    rw [runSeq_send_error (sixBytes v m s.bl) hk hw]
    exact pins_append_txFail _ _
  · intro on s t hx
    rw [exec_eq_runSeq hx rfl]
    exact ⟨rfl, rfl⟩

end Sys2Proof.Machine

namespace Sys2Proof

/-! ## The frame rows by their bits (30_encoding.md R80, R81) -/

/-- The frame row whose E and RS bits are `e` and `rs` (R81). -/
def frameRow (e rs : Bool) (d : Nibble) (bl : Bool) : Instr :=
  match rs, e with
  | false, false => .frameCmdLo d bl
  | false, true => .frameCmdHi d bl
  | true, false => .frameDataLo d bl
  | true, true => .frameDataHi d bl

theorem encode_frameRow (e rs : Bool) (d : Nibble) (bl : Bool) :
    encode (frameRow e rs d bl) = .frame8 (frameByte d bl e rs) := by
  cases rs <;> cases e <;> rfl

theorem decode_frame8_of_rw {b : Byte} (h : frameRw b = true) : decode (.frame8 b) = .error (.notFramed b) :=
  if_pos h

theorem decode_frame8_of_not_rw {b : Byte} (h : frameRw b = false) :
    decode (.frame8 b) = .ok (frameRow (frameE b) (frameRs b) (frameNibble b) (frameBl b)) := by
  simp only [decode, decodeFrame, h, frameRow]
  cases frameRs b <;> cases frameE b <;> rfl

theorem decode_frameByte (d : Nibble) (bl e rs : Bool) :
    decode (.frame8 (frameByte d bl e rs)) = .ok (frameRow e rs d bl) := by
  rw [decode_frame8_of_not_rw (frameRw_frameByte d bl e rs)]
  simp

/-- A byte with RW clear is laid out from its other fields (R80). -/
theorem frameByte_of_fields {b : Byte} (h : frameRw b = false) :
    frameByte (frameNibble b) (frameBl b) (frameE b) (frameRs b) = b := by
  revert b; decide

/-- A frame by its fields as numbers. -/
theorem frameByte_eq_ofNat (d : Nibble) (bl e rs : Bool) :
    frameByte d bl e rs = BitVec.ofNat 8 (16 * d.toNat + 8 * bl.toNat + 4 * e.toNat + rs.toNat) := by
  revert d bl e rs; decide

/-- Settles O3: with RW clear the kind is read off E and RS. -/
theorem frameKindsPartitionTheBytesWithRwClear : Obligations.FrameKindsPartitionTheBytesWithRwClear := by
  intro b
  have kind {e rs : Bool} (hrw : frameRw b = false) (he : frameE b = e) (hrs : frameRs b = rs) :
      decode (.frame8 b) = .ok (frameRow e rs (frameNibble b) (frameBl b)) := by
    rw [decode_frame8_of_not_rw hrw, he, hrs]
  exact ⟨decode_frame8_of_rw, kind, kind, kind, kind⟩

/-! ## The command bytes (R88) -/

/-- Bit 7 marks CTRL.SET_DDRAM, and the seven bits below it are the address. -/
theorem getLsbD_seven_setDdram (a : BitVec 7) : (1#1 ++ a).getLsbD 7 = true := by
  revert a; decide

theorem setDdram_of_getLsbD_seven {b : Byte} (h : b.getLsbD 7 = true) : 1#1 ++ b.extractLsb' 0 7 = b := by
  revert b; decide

theorem setDdram_eq_ofNat (a : BitVec 7) : 1#1 ++ a = BitVec.ofNat 8 (0x80 + a.toNat) := by
  revert a; decide

/-- The six fixed command bytes have bit 7 clear, so a byte with bit 7 set is none of them. -/
theorem decode_ctrl8_of_getLsbD_seven {b : Byte} (h : b.getLsbD 7 = true) :
    decode (.ctrl8 b) = .ok (.ctrlSetDdram (b.extractLsb' 0 7)) := by
  have hne {v : Byte} (hv : v.getLsbD 7 = false) : b ≠ v := by
    rintro rfl
    exact Bool.false_ne_true (hv.symm.trans h)
  simp only [decode, decodeCtrl, hne (v := 0x33#8) rfl, hne (v := 0x32#8) rfl, hne (v := 0x06#8) rfl,
    hne (v := 0x0C#8) rfl, hne (v := 0x28#8) rfl, hne (v := 0x01#8) rfl, h, if_true, if_false]

theorem decode_setDdram (a : BitVec 7) : decode (.ctrl8 (1#1 ++ a)) = .ok (.ctrlSetDdram a) := by
  rw [decode_ctrl8_of_getLsbD_seven (getLsbD_seven_setDdram a), BitVec.extractLsb'_append_eq_right]

theorem encode_of_decode_ctrl8 {b : Byte} {i : Instr} (h : decode (.ctrl8 b) = .ok i) : encode i = .ctrl8 b := by
  cases h7 : b.getLsbD 7 with
  | true =>
    rw [decode_ctrl8_of_getLsbD_seven h7] at h
    cases h
    exact congrArg Request.ctrl8 (setDdram_of_getLsbD_seven h7)
  | false =>
    simp only [decode, decodeCtrl, h7, Bool.false_eq_true, if_false] at h
    split_ifs at h <;> (cases h; subst b; rfl)

/-! ## The requests by their operation code (R92, R93, R95) -/

theorem Mode.toBit_ofBit (b : BitVec 1) : (Mode.ofBit b).toBit = b := by
  revert b; decide

theorem ofBool_bitSet (b : BitVec 1) : BitVec.ofBool (bitSet b) = b := by
  revert b; decide

theorem decodeCmd_unassigned {op : BitVec 4} (h : op.toNat ∈ [0, 6, 7, 14, 15]) (f : Fields) :
    decodeCmd op f = .error (.unassignedOp op) := by
  simp only [List.mem_cons, List.not_mem_nil, or_false] at h
  rcases h with h | h | h | h | h <;> simp [decodeCmd, h]

theorem decodeCmd_assigned {op : BitVec 4} (h : op.toNat ∉ [0, 6, 7, 14, 15]) (f : Fields) :
    ∃ i, decodeCmd op f = .ok i := by
  have hrest : op.toNat ∈ [1, 2, 3, 4, 5, 8, 9, 10, 11, 12, 13] := by
    simp only [List.mem_cons, List.not_mem_nil, or_false] at h ⊢
    omega
  simp only [List.mem_cons, List.not_mem_nil, or_false] at hrest
  rcases hrest with h | h | h | h | h | h | h | h | h | h | h <;> simp [decodeCmd, h]

/-- Settles O4: an operation code is one of the five, or the decoder has an arm for it. -/
theorem unassignedCodesAreRefused : Obligations.UnassignedCodesAreRefused := by
  intro op f
  split
  · next h => exact decodeCmd_unassigned h f
  · next h => exact decodeCmd_assigned h f

theorem encode_of_decodeCmd {op : BitVec 4} {f : Fields} {i : Instr} (h : decodeCmd op f = .ok i) :
    encode i = .cmdOp4 op (usedFields op f) := by
  have hop {k : Nat} (hk : op.toNat = k) : op = BitVec.ofNat 4 k := by simp [← hk]
  unfold decodeCmd at h
  split at h <;> cases h <;> (next hk => rw [hop hk]; simp [encode, usedFields, Mode.toBit_ofBit, ofBool_bitSet])

/-! ## Decoding and encoding -/

/-- Settles O1: each operand is read back from its own field of the word. -/
theorem decodeOfEncode : Obligations.DecodeOfEncode := by
  intro i
  cases i with
  | frameCmdLo d bl | frameCmdHi d bl | frameDataLo d bl | frameDataHi d bl => exact decode_frameByte d bl _ _
  | ctrlSetDdram a => exact decode_setDdram a
  | setbl | frame | write => simp [decode, encode, decodeCmd]
  | _ => rfl

/-- Settles O2, format by format. -/
theorem encodeOfDecode : Obligations.EncodeOfDecode := by
  intro q i h
  cases q with
  | frame8 b =>
    cases hrw : frameRw b with
    | true => cases (decode_frame8_of_rw hrw).symm.trans h
    | false =>
      cases (decode_frame8_of_not_rw hrw).symm.trans h
      rw [encode_frameRow, frameByte_of_fields hrw]
      rfl
  | ctrl8 b => exact encode_of_decode_ctrl8 h
  | cmdOp4 op f => exact encode_of_decodeCmd h

/-- Settles O5: the decoder computes on the seven words. -/
theorem tableWordsDecode : Obligations.TableWordsDecode :=
  ⟨decode_frameByte 4#4 true false false, decode_frameByte 9#4 false true true, rfl, decode_setDdram 0x19#7, rfl, rfl,
    rfl⟩

end Sys2Proof

namespace Sys2Proof.Machine

/-! ## The frame rows and the command rows as operations (30_encoding.md R81, R88) -/

theorem plan_frameRow (e rs : Bool) (d : Nibble) (bl : Bool) (s : State) :
    plan (frameRow e rs d bl) s = .ok [.busWrite (frameByte d bl e rs)] := by
  cases rs <;> cases e <;> rfl

theorem planResponse_frameRow (e rs : Bool) (d : Nibble) (bl : Bool) : planResponse (frameRow e rs d bl) = .ok := by
  cases rs <;> cases e <;> rfl

/-- A frame row of an idle open block is the one micro-operation that transmits its byte. -/
theorem exec_frameRow_of_ready {s : State} (e rs : Bool) (d : Nibble) (bl : Bool) (hq : s.seq = .idle)
    (ho : s.isOpen = true) :
    exec (frameRow e rs d bl) s = .next (runSeq [.busWrite (frameByte d bl e rs)] .ok s) := by
  have hne : frameRow e rs d bl ≠ .openBus := by cases rs <;> cases e <;> nofun
  rw [exec_of_ready hq (fun _ => ho) (absurd · hne), plan_frameRow, planResponse_frameRow, runPlan_ok]

/-- The end of an operation in a block that is idle already adds the RSP transaction alone. -/
theorem finish_of_idle {s : State} (hq : s.seq = .idle) (r : Response) :
    finish r s = { s with rsp := s.rsp ++ [r] } := by
  cases s; cases hq; rfl

theorem exec_frameRow_ok {s : State} {rest : List WriteAnswer} (e rs : Bool) (d : Nibble) (bl : Bool)
    (hq : s.seq = .idle) (ho : s.isOpen = true) (hw : s.busWrites = .ok :: rest) :
    exec (frameRow e rs d bl) s = .next
      { s with
        trace := s.trace ++ [.tx (frameByte d bl e rs)]
        bus := s.bus ++ [.wrote s.handle (frameByte d bl e rs) .ok]
        busWrites := rest
        rsp := s.rsp ++ [.ok] } := by
  rw [exec_frameRow_of_ready e rs d bl hq ho, runSeq_busWrite_ok hw, runSeq_nil, finish_of_idle (by exact hq)]
  rfl

theorem exec_frameRow_error {s : State} {det : Detail} {rest : List WriteAnswer} (e rs : Bool) (d : Nibble) (bl : Bool)
    (hq : s.seq = .idle) (ho : s.isOpen = true) (hw : s.busWrites = .error det :: rest) :
    exec (frameRow e rs d bl) s = .next
      { s.afterFailed (frameByte d bl e rs) det with rsp := s.rsp ++ [.err (.transportError det)] } := by
  rw [exec_frameRow_of_ready e rs d bl hq ho, runSeq_busWrite_error hw, raise, finish_of_idle (by exact hq),
    State.afterFailed, hw]
  rfl

/-- Settles O27: the four rows are the four values of E and RS. -/
theorem frameRowsTransmitOneByte : Obligations.FrameRowsTransmitOneByte := by
  intro s d bl hq ho i e rs hi b
  have hrow : ∃ e' rs' : Bool, i = frameRow e' rs' d bl ∧ b = frameByte d bl e' rs' := by
    rcases hi with ⟨rfl, rfl, rfl⟩ | ⟨rfl, rfl, rfl⟩ | ⟨rfl, rfl, rfl⟩ | ⟨rfl, rfl, rfl⟩
    · exact ⟨false, false, rfl, (frameByte_eq_ofNat d bl false false).symm⟩
    · exact ⟨true, false, rfl, (frameByte_eq_ofNat d bl true false).symm⟩
    · exact ⟨false, true, rfl, (frameByte_eq_ofNat d bl false true).symm⟩
    · exact ⟨true, true, rfl, (frameByte_eq_ofNat d bl true true).symm⟩
  obtain ⟨e', rs', rfl, hb⟩ := hrow
  rw [hb]
  constructor
  · rintro ⟨rest, hw⟩
    rw [exec_frameRow_ok e' rs' d bl hq ho hw, hw]
    rfl
  · rintro det ⟨rest, hw⟩
    exact exec_frameRow_error e' rs' d bl hq ho hw

/-- WRITE with its six transmits answered `Ok` (42_bytewriter.md R131). -/
theorem exec_write_ok {s : State} (v : Byte) (m : Mode) (hq : s.seq = .idle) (ho : s.isOpen = true)
    (hw : s.writesOk 6) :
    exec (.write v m) s = .next
      { s.afterSent (sixBytes v m s.bl) with
        timer := 0
        rsp := s.rsp ++ [.ok] } := by
  obtain ⟨rest, hw⟩ := hw
  rw [exec_write_of_ready v m hq ho, runSeq_send_ok (sixBytes v m s.bl) hw, runSeq_nil, finish_of_idle (by exact hq)]
  rfl

/-- Settles O26: a command row is WRITE of its byte. -/
theorem commandBytesAreSentThroughWrite : Obligations.CommandBytesAreSentThroughWrite := by
  intro s hq ho hw i v hi
  have hwrite : exec i s = exec (.write v .command) s := by
    rcases hi with ⟨rfl, rfl⟩ | ⟨rfl, rfl⟩ | ⟨rfl, rfl⟩ | ⟨rfl, rfl⟩ | ⟨rfl, rfl⟩ | ⟨rfl, rfl⟩ | ⟨a, rfl, rfl⟩
    on_goal 7 => rw [← setDdram_eq_ofNat]
    all_goals rfl
  rw [hwrite, exec_write_ok v .command hq ho hw]

/-! ## The compositions (R98) -/

/-- An accepted MOVECURSOR is WRITE of its byte (44_cursor.md R150). -/
theorem exec_movecursor_of_accepted {s : State} {row col : Nat} {v : Byte} (h : cursorByte s.cfg row col = .ok v) :
    exec (.movecursor row col) s = exec (.write v .command) s := by
  have hsteps : cursorSteps s.cfg s.bl row col = .ok (writeSteps s.cfg.tDelay s.bl v .command) := by
    rw [cursorSteps, h]
  show checkedTransmit (cursorSteps s.cfg s.bl row col) .ok s = _
  rw [hsteps]
  rfl

theorem exec_init_eq_exec_initseq {s : State} (ho : s.isOpen = true) : exec .init s = exec .initseq s := by
  rw [exec_eq, exec_eq, plan_init_of_open ho, ho]
  rfl

theorem exec_init_of_ready {s : State} (hq : s.seq = .idle) (ho : s.isOpen = false) :
    exec .init s = .next (runSeq (openSteps s.cfg ++ initseqSteps s.cfg) .ok s) := by
  rw [exec_of_ready (i := .init) hq nofun nofun, plan_init_of_closed ho]
  rfl

theorem exec_initseq_of_ready {s : State} (hq : s.seq = .idle) (ho : s.isOpen = true) :
    exec .initseq s = .next (runSeq (initseqSteps s.cfg) .ok s) :=
  exec_of_ready hq (fun _ => ho) nofun

/-- An OPEN that leaves OPEN = 1 was granted: with its RSP transaction taken back it leaves the state in which INITSEQ
starts. -/
theorem exec_init_of_granted {s t : State} (hx : exec .openBus s = .next t) (ht : t.isOpen = true) :
    exec .init s = exec .initseq { t with rsp := s.rsp } := by
  obtain ⟨⟨hq, -, hclosed⟩, -⟩ := exec_ran hx
  have ho := hclosed rfl
  have htrun := exec_openBus_eq hx
  rcases runSeq_openSteps_cases [] .ok s with ⟨h, rest, hb, hrun⟩ | ⟨d, rest, hb, hrun⟩ | ⟨hb, hrun⟩
  · rw [hrun, runSeq_nil, finish_of_idle (by exact hq)] at htrun
    have hgranted : { t with rsp := s.rsp } = s.granted h rest := by rw [htrun]; rfl
    rw [hgranted, exec_init_of_ready hq ho, runSeq_openSteps_handle hb, exec_initseq_of_ready (by exact hq) rfl]
    rfl
  all_goals
    rw [hrun] at htrun
    rw [htrun] at ht
    exact absurd (ho.symm.trans ht) Bool.false_ne_true

/-- An OPEN that ends with an error ends the INIT in the same state (R161). -/
theorem exec_init_of_denied {s t : State} (hx : exec .openBus s = .next t) (hrsp : t.rsp ≠ s.rsp ++ [.ok])
    (hidle : t.seq = .idle) : exec .init s = .next t := by
  obtain ⟨⟨hq, -, hclosed⟩, -⟩ := exec_ran hx
  have htrun := exec_openBus_eq hx
  rw [exec_init_of_ready hq (hclosed rfl)]
  rcases runSeq_openSteps_cases [] .ok s with ⟨h, rest, hb, hrun⟩ | ⟨d, rest, hb, hrun⟩ | ⟨hb, hrun⟩
  · rw [htrun, hrun] at hrsp
    exact absurd rfl hrsp
  · rw [htrun, hrun, runSeq_openSteps_error hb]
  · rw [htrun, hrun] at hidle
    cases hidle

/-- Settles O44, one lemma for each composition. -/
theorem compositionsAreExact : Obligations.CompositionsAreExact :=
  fun _ => ⟨rfl, fun _ _ _ => exec_movecursor_of_accepted, exec_init_eq_exec_initseq, fun _ => exec_init_of_granted,
    fun _ => exec_init_of_denied, fun _ => rfl⟩

/-! ## The two nibbles of a WRITE (R98, 42_bytewriter.md R130) -/

theorem afterSent_append (s : State) (as bs : List Byte) :
    s.afterSent (as ++ bs) = (s.afterSent as).afterSent bs := by
  simp [State.afterSent, pacedTx]

theorem enableSet_frameByte (d : Nibble) (bl rs : Bool) :
    enableSet (frameByte d bl false rs) = frameByte d bl true rs := frameByte_enable d bl rs

theorem enableClear_frameByte (d : Nibble) (bl e rs : Bool) :
    enableClear (frameByte d bl e rs) = frameByte d bl false rs := frameByte_mask d bl e rs

theorem waitFor_eq (d : Duration) (s : State) :
    waitFor d s = { s with trace := s.trace ++ [.delay d], timer := 0 } := rfl

/-- STROBE is a wait and then a run of its two transmits (41_strobe.md R120). -/
theorem strobeSteps_eq (d : Duration) (f : Byte) :
    strobeSteps d f = .wait d :: (sendSteps d [enableSet f, enableClear f] ++ []) := rfl

/-- STROBE of an idle open block with both its transmits answered `Ok`. -/
theorem exec_strobe_ok {s : State} (f : Byte) (hq : s.seq = .idle) (ho : s.isOpen = true) (hw : s.writesOk 2) :
    exec (.strobe f) s = .next
      { (waitFor s.cfg.tDelay s).afterSent [enableSet f, enableClear f] with
        timer := 0
        rsp := s.rsp ++ [.ok] } := by
  obtain ⟨rest, hw⟩ := hw
  have hsent := runSeq_send_ok [enableSet f, enableClear f] (s := waitFor s.cfg.tDelay s) (ms := []) (r := .ok) hw
  rw [exec_of_ready (i := .strobe f) hq (fun _ => ho) nofun, plan, runPlan_ok, strobeSteps_eq, runSeq_wait]
  refine congrArg Host.Outcome.next (hsent.trans ?_)
  rw [runSeq_nil, finish_of_idle (by exact hq)]
  rfl

/-- The state after the three frames of a nibble, sent by two operations with an RSP transaction each. -/
def State.afterNibble (s : State) (d : Nibble) (bl rs : Bool) : State :=
  { s.afterSent (nibbleFrames d bl rs) with
    timer := 0
    rsp := s.rsp ++ [.ok, .ok] }

/-- The setup transmit of a frame and STROBE of it, run one after the other, send the nibble. -/
theorem exec_setup_then_strobe {s : State} (d : Nibble) (bl rs : Bool) (hq : s.seq = .idle) (ho : s.isOpen = true)
    (hw : s.writesOk 3) :
    ∃ t, exec (frameRow false rs d bl) s = .next t ∧
      exec (.strobe (frameByte d bl false rs)) t = .next (s.afterNibble d bl rs) := by
  obtain ⟨rest, hw⟩ := hw
  refine ⟨_, exec_frameRow_ok false rs d bl hq ho hw, ?_⟩
  rw [exec_strobe_ok _ (by exact hq) (by exact ho) ⟨rest, rfl⟩, enableSet_frameByte, enableClear_frameByte]
  simp [State.afterNibble, State.afterSent, nibbleFrames, pacedTx, waitFor_eq, hw, List.replicate_succ]

/-- Settles O45: each nibble is a setup transmit and a STROBE, and WRITE sends the frames of the two nibbles. -/
theorem writeIsTwoStrobedNibbles : Obligations.WriteIsTwoStrobedNibbles := by
  intro v m s hq ho hw setup
  have hsetup : setup = fun n => frameRow false (decide (m = .data)) n s.bl := by cases m <;> rfl
  have hwrite := exec_write_ok v m hq ho hw
  obtain ⟨rest, hw⟩ := hw
  obtain ⟨t1, hrow1, hstrobe1⟩ := exec_setup_then_strobe (v.extractLsb' 4 4) s.bl (decide (m = .data)) hq ho
    ⟨List.replicate 3 .ok ++ rest, hw⟩
  obtain ⟨t3, hrow3, hstrobe3⟩ := exec_setup_then_strobe
    (s := s.afterNibble (v.extractLsb' 4 4) s.bl (decide (m = .data))) (v.extractLsb' 0 4) s.bl (decide (m = .data))
    hq ho ⟨rest, by simp [State.afterNibble, State.afterSent, hw, nibbleFrames]⟩
  rw [hsetup, highFrame_eq_frameByte, lowFrame_eq_frameByte]
  refine ⟨t1, _, t3, _, hrow1, hstrobe1, hrow3, hstrobe3, ?_⟩
  rw [hwrite, sixBytes_eq_frameBytes, afterSent_append]
  rfl

/-! ## RW is never set (R94) -/

/-- Every event of a run is that of a micro-operation of its list: of its success, or of the failure of a request. -/
theorem runSeq_events (todo : List MicroOp) (r : Response) (s : State) :
    ∃ es, (runSeq todo r s).trace = s.trace ++ es ∧
      ∀ e ∈ es, ∃ m ∈ todo, e ∈ okEvents m ∨ (m.isRequest = true ∧ e = failEvent m) := by
  have hpre {pre : List MicroOp} (hsub : pre ⊆ todo) (e : Event) (he : e ∈ pre.flatMap okEvents) :
      ∃ m ∈ todo, e ∈ okEvents m ∨ (m.isRequest = true ∧ e = failEvent m) := by
    obtain ⟨m, hm, hem⟩ := List.mem_flatMap.1 he
    exact ⟨m, hsub hm, .inl hem⟩
  cases ran_runSeq todo r s with
  | ended _ _ htrace => exact ⟨_, htrace, hpre (List.Subset.refl todo)⟩
  | aborted pre m post _ htodo hm _ _ htrace =>
    refine ⟨_, htrace, fun e he => ?_⟩
    rcases List.mem_append.1 he with he | he
    · exact hpre (by simp [htodo]) e he
    · exact ⟨m, by simp [htodo], .inr ⟨hm, List.mem_singleton.1 he⟩⟩
  | waiting pre m post htodo _ _ _ htrace => exact ⟨_, htrace, hpre (by simp [htodo])⟩

/-- Only the transmit of a byte leaves Tx or TxFail of it (20_memory.md R51). -/
theorem eq_busWrite_of_event {m : MicroOp} {e : Event} {b : Byte} (he : e = .tx b ∨ e = .txFail b)
    (h : e ∈ okEvents m ∨ (m.isRequest = true ∧ e = failEvent m)) : m = .busWrite b := by
  cases m <;> rcases he with rfl | rfl <;> simp_all [okEvents, failEvent, MicroOp.isRequest]

theorem busWrite_mem_sendSteps {d : Duration} {bs : List Byte} {b : Byte} (h : .busWrite b ∈ sendSteps d bs) :
    b ∈ bs := by
  simpa [sendSteps] using h

theorem frameRw_of_mem_sixBytes {v : Byte} {m : Mode} {bl : Bool} {b : Byte} (h : b ∈ sixBytes v m bl) :
    frameRw b = false := by
  rw [sixBytes_eq_frameBytes] at h
  simp only [nibbleFrames, List.mem_append, List.mem_cons, List.not_mem_nil, or_false] at h
  rcases h with (rfl | rfl | rfl) | (rfl | rfl | rfl) <;> exact frameRw_frameByte _ _ _ _

theorem frameRw_of_mem_wireBytes {bl : Bool} {ws : List (Bool × Byte)} {b : Byte} (h : b ∈ wireBytes bl ws) :
    frameRw b = false := by
  obtain ⟨w, -, hb⟩ := List.mem_flatMap.1 h
  exact frameRw_of_mem_sixBytes hb

theorem frameRw_of_mem_initseqSteps {c : Config} {b : Byte} (h : .busWrite b ∈ initseqSteps c) : frameRw b = false := by
  have hb : b ∈ init36 := busWrite_mem_sendSteps (d := c.tDelay) (by simpa [initseqSteps_eq] using h)
  rw [← wireBytes_initSeq] at hb
  exact frameRw_of_mem_wireBytes hb

/-- Setting and clearing enable leaves the other lines alone (41_strobe.md R121). -/
theorem frameRw_enableSet (f : Byte) : frameRw (enableSet f) = frameRw f := by
  revert f; decide

theorem frameRw_enableClear (f : Byte) : frameRw (enableClear f) = frameRw f := by
  revert f; decide

theorem frameRw_of_mem_strobeSteps {d : Duration} {f b : Byte} (h : .busWrite b ∈ strobeSteps d f) :
    frameRw b = frameRw f := by
  have hb : b = enableSet f ∨ b = enableClear f := by simpa [strobeSteps] using h
  rcases hb with rfl | rfl
  · exact frameRw_enableSet f
  · exact frameRw_enableClear f

/-- Every byte that a plan transmits has RW clear, STROBE's if its operand has. -/
theorem frameRw_of_mem_plan {i : Instr} {s : State} {todo : List MicroOp} {b : Byte} (hp : plan i s = .ok todo)
    (hst : ∀ f, i = .strobe f → frameRw f = false) (hb : .busWrite b ∈ todo) : frameRw b = false := by
  cases i with
  | frameCmdLo | frameCmdHi | frameDataLo | frameDataHi =>
    cases hp
    cases List.mem_singleton.1 hb
    exact frameRw_frameByte _ _ _ _
  | strobe f =>
    cases hp
    exact (frameRw_of_mem_strobeSteps hb).trans (hst f rfl)
  | initseq =>
    cases hp
    exact frameRw_of_mem_initseqSteps hb
  | init =>
    cases hp
    rcases List.mem_append.1 hb with hb | hb
    · cases ho : s.isOpen <;> simp [ho, openSteps] at hb
    · exact frameRw_of_mem_initseqSteps hb
  | setbl | openBus =>
    cases hp
    simp [openSteps] at hb
  | close =>
    cases hp
    cases ho : s.isOpen <;> simp [ho, closeSteps] at hb
  | _ =>
    rw [plan_eq_sendSteps hp rfl rfl nofun] at hb
    exact frameRw_of_mem_wireBytes (busWrite_mem_sendSteps hb)

/-- Settles O57: a run transmits what stands in its plan. -/
theorem rwIsNeverSet : Obligations.RwIsNeverSet := by
  intro i s t hx hst
  obtain ⟨-, ⟨e, -, rfl⟩ | ⟨todo, hp, -, rfl⟩⟩ := exec_ran hx
  · exact ⟨[], (List.append_nil _).symm, by simp⟩
  · obtain ⟨es, htrace, hes⟩ := runSeq_events todo (planResponse i) s
    have hrw {e : Event} {b : Byte} (hmem : e ∈ es) (he : e = .tx b ∨ e = .txFail b) : frameRw b = false := by
      obtain ⟨m, hm, hevent⟩ := hes e hmem
      exact frameRw_of_mem_plan hp hst (eq_busWrite_of_event he hevent ▸ hm)
    exact ⟨es, htrace, fun b hb => hb.elim (hrw · (.inl rfl)) (hrw · (.inr rfl))⟩

end Sys2Proof.Machine

namespace Sys2Proof

/-! ## Masks and shifts of a frame (30_encoding.md R80, R85, R86) -/

theorem frameByte_and_highMask (d : Nibble) (bl e rs : Bool) : frameByte d bl e rs &&& 0xF0#8 = d ++ 0#4 := by
  revert d bl e rs; decide

/-- The low four bits of a frame do not depend on its data nibble. -/
theorem frameByte_and_lowMask (d d' : Nibble) (bl e rs : Bool) :
    frameByte d bl e rs &&& 0x0F#8 = frameByte d' bl e rs &&& 0x0F#8 := by
  have hlow (n : Nibble) : frameByte n bl e rs &&& 0x0F#8 = frameByte 0#4 bl e rs := by
    revert n bl e rs; decide
  rw [hlow d, hlow d']

/-- A frame with enable clear has bits 2 and 1 clear. -/
theorem frameByte_and_enableRwMask (d : Nibble) (bl rs : Bool) : frameByte d bl false rs &&& 0x06#8 = 0#8 := by
  revert d bl rs; decide

theorem frameByte_shiftRight_four (d : Nibble) (bl e rs : Bool) : frameByte d bl e rs >>> 4 = 0#4 ++ d := by
  revert d bl e rs; decide

theorem and_highMask (v : Byte) : v &&& 0xF0#8 = v.extractLsb' 4 4 ++ 0#4 := by
  revert v; decide

theorem shiftLeft_four_and_highMask (v : Byte) : (v <<< 4) &&& 0xF0#8 = v.extractLsb' 0 4 ++ 0#4 := by
  revert v; decide

/-- A byte put together from its high nibble in place and its low nibble moved down. -/
theorem nibbles_or (v : Byte) : (v.extractLsb' 4 4 ++ 0#4) ||| (0#4 ++ v.extractLsb' 0 4) = v := by
  revert v; decide

end Sys2Proof

namespace Sys2Proof.Machine

/-! ## FRAME (40_framer.md R110 to R112) -/

theorem modeBit_eq_ite (m : Mode) : modeBit m = if m = .command then 0x00#8 else 0x01#8 := by
  cases m <;> rfl

/-- FRAME of an idle block, open or closed, adds the frame pair to RSP and does nothing else (R110). -/
theorem exec_frame_of_idle {s : State} (v : Byte) (m : Mode) (on : Bool) (hq : s.seq = .idle) :
    exec (.frame v m on) s = .next { s with rsp := s.rsp ++ [.frames (highFrame v m on) (lowFrame v m on)] } := by
  rw [exec_of_ready (i := .frame v m on) hq nofun nofun, plan, planResponse, runPlan_ok, runSeq_nil, finish_of_idle hq]

/-- Settles O17: both frames have the layout of R80 with enable clear, and their fields are read off it. -/
theorem frameReturnsBothFrames : Obligations.FrameReturnsBothFrames := by
  intro v m on s hq modeB backB hf lf
  have hhf : hf = highFrame v m on := by rw [highFrame, modeBit_eq_ite]; rfl
  have hlf : lf = lowFrame v m on := by rw [lowFrame, modeBit_eq_ite]; rfl
  rw [hhf, hlf]
  refine ⟨rfl, exec_frame_of_idle v m on hq, ?_⟩
  rw [highFrame_eq_frameByte, lowFrame_eq_frameByte]
  exact ⟨frameNibble_frameByte _ _ _ _, frameNibble_frameByte _ _ _ _,
    ⟨frameBl_frameByte _ _ _ _, frameBl_frameByte _ _ _ _⟩, ⟨frameE_frameByte _ _ _ _, frameE_frameByte _ _ _ _⟩,
    ⟨frameRw_frameByte _ _ _ _, frameRw_frameByte _ _ _ _⟩, ⟨frameRs_frameByte _ _ _ _, frameRs_frameByte _ _ _ _⟩⟩

/-- The value is read back from the pair (R111). -/
theorem value_of_frames (v : Byte) (m : Mode) (on : Bool) :
    (highFrame v m on &&& 0xF0#8) ||| (lowFrame v m on >>> 4) = v := by
  rw [highFrame_eq_frameByte, lowFrame_eq_frameByte, frameByte_and_highMask, frameByte_shiftRight_four, nibbles_or]

theorem frameRs_highFrame (v : Byte) (m : Mode) (on : Bool) : frameRs (highFrame v m on) = decide (m = .data) := by
  rw [highFrame_eq_frameByte, frameRs_frameByte]

theorem frameRs_lowFrame (v : Byte) (m : Mode) (on : Bool) : frameRs (lowFrame v m on) = decide (m = .data) := by
  rw [lowFrame_eq_frameByte, frameRs_frameByte]

theorem frameBl_highFrame (v : Byte) (m : Mode) (on : Bool) : frameBl (highFrame v m on) = on := by
  rw [highFrame_eq_frameByte, frameBl_frameByte]

theorem frameBl_lowFrame (v : Byte) (m : Mode) (on : Bool) : frameBl (lowFrame v m on) = on := by
  rw [lowFrame_eq_frameByte, frameBl_frameByte]

/-- FRAME is injective, because each operand is read back from the pair. -/
theorem frames_injective {v v' : Byte} {m m' : Mode} {on on' : Bool} (hh : highFrame v m on = highFrame v' m' on')
    (hl : lowFrame v m on = lowFrame v' m' on') : v = v' ∧ m = m' ∧ on = on' := by
  have hv : v = v' := by rw [← value_of_frames v m on, hh, hl, value_of_frames]
  have hrs : decide (m = .data) = decide (m' = .data) := by rw [← frameRs_highFrame v m on, hh, frameRs_highFrame]
  have hm : m = m' := by rw [← modeOfRs_decide m, hrs, modeOfRs_decide]
  have hon : on = on' := by rw [← frameBl_highFrame v m on, hh, frameBl_highFrame]
  exact ⟨hv, hm, hon⟩

/-- Settles O18: the masks and the decoder read the fields off the layout of the two frames, and the operands are read
back from them. -/
theorem framerKeepsNibblesModeAndBacklight : Obligations.FramerKeepsNibblesModeAndBacklight := by
  refine ⟨fun v m on => ?_, fun v v' m m' on on' => frames_injective⟩
  have hmode {b : Byte} (h : frameRs b = decide (m = .data)) : m = .data ↔ frameRs b = true := by
    rw [h, decide_eq_true_iff]
  refine ⟨?_, ?_, ?_, (value_of_frames v m on).symm, hmode (frameRs_highFrame v m on), hmode (frameRs_lowFrame v m on),
    (frameBl_highFrame v m on).symm, (frameBl_lowFrame v m on).symm, ?_, ?_, enableClear_highFrame v m on,
    enableClear_lowFrame v m on, ?_, ?_⟩
  · rw [highFrame_eq_frameByte, frameByte_and_highMask, and_highMask]
  · rw [lowFrame_eq_frameByte, frameByte_and_highMask, shiftLeft_four_and_highMask]
  · rw [highFrame_eq_frameByte, lowFrame_eq_frameByte]
    exact frameByte_and_lowMask _ _ _ _ _
  · rw [highFrame_eq_frameByte, frameByte_and_enableRwMask]
  · rw [lowFrame_eq_frameByte, frameByte_and_enableRwMask]
  · rw [highFrame_eq_frameByte]
    cases m <;> exact decode_frameByte _ on false _
  · rw [lowFrame_eq_frameByte]
    cases m <;> exact decode_frameByte _ on false _

end Sys2Proof.Machine

namespace Sys2Proof.Machine

/-! ## STROBE (41_strobe.md R120 to R122) -/

/-- STROBE of an idle open block waits and then sends its two bytes. -/
theorem exec_strobe_of_ready {s : State} (f : Byte) (hq : s.seq = .idle) (ho : s.isOpen = true) :
    exec (.strobe f) s = .next
      (runSeq (sendSteps s.cfg.tDelay [enableSet f, enableClear f] ++ []) .ok (waitFor s.cfg.tDelay s)) :=
  exec_of_ready hq (fun _ => ho) nofun

/-- Settles O19: after the first wait STROBE is two transmits, each followed by its wait. -/
theorem strobeTransmitsTheEnablePulse : Obligations.StrobeTransmitsTheEnablePulse := by
  intro f s hq ho hw
  refine ⟨rfl, ?_⟩
  rw [exec_strobe_ok f hq ho hw]
  simp [State.afterSent, pacedTx, waitFor_eq, enableSet, enableClear, enBit]

/-- STROBE whose transmit k, from 0, is answered with an error (R122). The wait before the first transmit has run the
timer down already, so it is 0 for either k. -/
theorem exec_strobe_error {s : State} {k : Nat} {d : Detail} (f : Byte) (hq : s.seq = .idle) (ho : s.isOpen = true)
    (hk : k < 2) (hw : s.writeFailsAt k d) :
    exec (.strobe f) s = .next
      { ((waitFor s.cfg.tDelay s).afterSent ([enableSet f, enableClear f].take k)).afterFailed
          ([enableSet f, enableClear f].getD k 0#8) d with
        timer := 0
        rsp := s.rsp ++ [.err (.transportError d)] } := by
  obtain ⟨rest, hw⟩ := hw
  have hsent := runSeq_send_error [enableSet f, enableClear f] (s := waitFor s.cfg.tDelay s) (ms := []) (r := .ok) hk hw
  have htimer : (if k = 0 then (waitFor s.cfg.tDelay s).timer else 0) = 0 := ite_self 0
  rw [exec_strobe_of_ready f hq ho]
  refine congrArg Host.Outcome.next (hsent.trans ?_)
  rw [raise, finish_of_idle (by exact hq), htimer]
  rfl

/-- Settles O20, for each of the two transmits. -/
theorem strobeAbortsAtAFailedTransmit : Obligations.StrobeAbortsAtAFailedTransmit := by
  intro f s d hq ho
  constructor
  · intro hw
    rw [exec_strobe_error f hq ho (by decide) hw]
    simp [State.afterSent, State.afterFailed, pacedTx, waitFor_eq, enableSet, enBit]
  · intro hw
    rw [exec_strobe_error f hq ho (by decide) hw]
    simp [State.afterSent, State.afterFailed, pacedTx, waitFor_eq, enableSet, enableClear, enBit]

/-- The enable line is bit 2 alone (30_encoding.md R87). -/
theorem getLsbD_enBit (n : Nat) : enBit.getLsbD n = decide (n = 2) := by
  have hbit : enBit = BitVec.twoPow 8 2 := rfl
  simp [hbit, BitVec.getLsbD_twoPow, eq_comm]

theorem getLsbD_enableSet (f : Byte) (n : Nat) : (enableSet f).getLsbD n = (f.getLsbD n || decide (n = 2)) := by
  rw [enableSet, BitVec.getLsbD_or, getLsbD_enBit]

theorem getLsbD_enableClear (f : Byte) {n : Nat} (hn : n < 8) :
    (enableClear f).getLsbD n = (f.getLsbD n && !decide (n = 2)) := by
  rw [enableClear, BitVec.getLsbD_and, BitVec.getLsbD_not, getLsbD_enBit, decide_eq_true hn, Bool.true_and]

/-- A byte with enable set already is its own first transmit (R121). -/
theorem enableSet_of_getLsbD_two {f : Byte} (h : f.getLsbD 2 = true) : enableSet f = f := by
  refine BitVec.eq_of_getLsbD_eq fun n _ => ?_
  rw [getLsbD_enableSet]
  by_cases hn : n = 2
  · simp [hn, h]
  · simp [hn]

/-- Settles O21: the bytes of the trace are those of O19, and their bits are read off `enableSet` and `enableClear`. -/
theorem strobeDoesNotInspectItsOperand : Obligations.StrobeDoesNotInspectItsOperand := by
  intro f s hq ho hw
  obtain ⟨-, hrun⟩ := strobeTransmitsTheEnablePulse f s hq ho hw
  refine ⟨_, enableSet f, enableClear f, hrun, rfl, rfl, rfl, fun n hne hn => ⟨?_, ?_⟩, ?_, ?_,
    enableSet_of_getLsbD_two⟩
  · simp [getLsbD_enableSet, hne]
  · simp [getLsbD_enableClear f hn, hne]
  · simp [getLsbD_enableSet]
  · rw [getLsbD_enableClear f (by decide)]
    simp

end Sys2Proof.Machine

namespace Sys2Proof.Machine

/-! ## WRITE (42_bytewriter.md R130 to R133) -/

/-- Settles O22: the run of the six bytes, with `afterSent` written out. -/
theorem writeSendsBothNibblesHighFirst : Obligations.WriteSendsBothNibblesHighFirst := by
  intro v m s hq ho hw
  refine ⟨rfl, ?_⟩
  rw [exec_write_ok v m hq ho hw]
  rfl

/-- WRITE whose transmit k, from 0, is answered with an error (R132). -/
theorem exec_write_error {s : State} {k : Nat} {d : Detail} (v : Byte) (m : Mode) (hq : s.seq = .idle)
    (ho : s.isOpen = true) (hk : k < 6) (hw : s.writeFailsAt k d) :
    exec (.write v m) s = .next
      { (s.afterSent ((sixBytes v m s.bl).take k)).afterFailed ((sixBytes v m s.bl).getD k 0#8) d with
        timer := if k = 0 then s.timer else 0
        rsp := s.rsp ++ [.err (.transportError d)] } := by
  obtain ⟨rest, hw⟩ := hw
  rw [exec_write_of_ready v m hq ho, runSeq_send_error (sixBytes v m s.bl) hk hw, raise, finish_of_idle (by exact hq)]
  rfl

/-- Settles O23: a run of transmits ends at its first error. -/
theorem writeStopsAtItsFailingTransmit : Obligations.WriteStopsAtItsFailingTransmit :=
  fun v m _ _ _ => exec_write_error v m

/-! ### The lines that are the same in every byte of a WRITE (R133) -/

theorem mem_nibbleFrames {d : Nibble} {bl rs : Bool} {b : Byte} (h : b ∈ nibbleFrames d bl rs) :
    ∃ e, b = frameByte d bl e rs := by
  simp only [nibbleFrames, List.mem_cons, List.not_mem_nil, or_false] at h
  rcases h with rfl | rfl | rfl
  · exact ⟨false, rfl⟩
  · exact ⟨true, rfl⟩
  · exact ⟨false, rfl⟩

theorem mem_sixBytes {v : Byte} {m : Mode} {bl : Bool} {b : Byte} (h : b ∈ sixBytes v m bl) :
    ∃ d e, b = frameByte d bl e (decide (m = .data)) := by
  rw [sixBytes_eq_frameBytes] at h
  rcases List.mem_append.1 h with h | h <;> exact ⟨_, mem_nibbleFrames h⟩

/-- Settles O24: a run tries no byte but those of its plan, and all six of a WRITE's plan have its backlight and mode. -/
theorem writeCarriesOneBacklightAndMode : Obligations.WriteCarriesOneBacklightAndMode := by
  intro v m s t hx
  obtain ⟨es, htrace, hes⟩ := runSeq_events (sendSteps s.cfg.tDelay (sixBytes v m s.bl)) .ok s
  refine ⟨es, by rw [exec_eq_runSeq hx rfl]; exact htrace, fun b hb => ?_⟩
  obtain ⟨e, hmem, he⟩ : ∃ e ∈ es, e = .tx b ∨ e = .txFail b :=
    hb.elim (fun h => ⟨_, h, .inl rfl⟩) (fun h => ⟨_, h, .inr rfl⟩)
  obtain ⟨step, hstep, hevent⟩ := hes e hmem
  obtain ⟨d, en, rfl⟩ := mem_sixBytes (busWrite_mem_sendSteps (eq_busWrite_of_event he hevent ▸ hstep))
  exact ⟨frameBl_frameByte d s.bl en _, frameRw_frameByte d s.bl en _, frameRs_frameByte d s.bl en _⟩

/-! ### The strobes of a WRITE (R131, R132, 20_memory.md R68) -/

/-- The three frames of a nibble add its strobe in front of those of what follows. -/
theorem strobesIn_nibble_append (d : Nibble) (bl rs : Bool) (ts : List Transmit) :
    strobesIn ((nibbleFrames d bl rs).map (Transmit.mk true) ++ ts) = (rs, d) :: strobesIn ts := by
  obtain ⟨hok, hopen, hstrobe⟩ := strobes_of_nibble d bl rs
  rw [(strobes_append hok hopen ts).1, hstrobe]
  rfl

theorem strobesIn_sixBytes (v : Byte) (m : Mode) (bl : Bool) :
    strobesIn ((sixBytes v m bl).map (Transmit.mk true))
      = [(decide (m = .data), v.extractLsb' 4 4), (decide (m = .data), v.extractLsb' 0 4)] := by
  obtain ⟨-, -, hlow⟩ := strobes_of_nibble (v.extractLsb' 0 4) bl (decide (m = .data))
  rw [sixBytes_eq_frameBytes, List.map_append, strobesIn_nibble_append, hlow]

/-- A nibble whose setup, enable-set or enable-clear transmit fails completes no strobe. -/
theorem strobesIn_nibble_failed (d : Nibble) (bl rs : Bool) {k : Nat} (hk : k < 3) (b : Byte) :
    strobesIn (((nibbleFrames d bl rs).take k).map (Transmit.mk true) ++ [⟨false, b⟩]) = [] := by
  have hcases : k = 0 ∨ k = 1 ∨ k = 2 := by omega
  rcases hcases with rfl | rfl | rfl <;> simp [nibbleFrames, strobesIn, strobeAt]

/-- The six transmits of a WRITE up to a failing one: it stands in the high nibble or in the low one. -/
theorem strobesIn_sixBytes_failed (v : Byte) (m : Mode) (bl : Bool) {k : Nat} (hk : k < 6) (b : Byte) :
    strobesIn (((sixBytes v m bl).take k).map (Transmit.mk true) ++ [⟨false, b⟩])
      = if k < 3 then [] else [(decide (m = .data), v.extractLsb' 4 4)] := by
  have hlength : (nibbleFrames (v.extractLsb' 4 4) bl (decide (m = .data))).length = 3 := rfl
  rw [sixBytes_eq_frameBytes]
  split
  · next h =>
    rw [List.take_append_of_le_length (by omega)]
    exact strobesIn_nibble_failed _ _ _ h b
  · next h =>
    rw [List.take_append, List.take_of_length_le (by omega), hlength, List.map_append, List.append_assoc,
      strobesIn_nibble_append, strobesIn_nibble_failed _ _ _ (by omega)]

/-- Settles O25: the strobes are read off the transmits of the two runs of O22 and O23. -/
theorem strobesOfAWrite : Obligations.StrobesOfAWrite := by
  intro v m s hq ho
  constructor
  · intro hw
    refine ⟨_, _, exec_write_ok v m hq ho hw, rfl, ?_⟩
    rw [strobes, transmits_pacedTx, strobesIn_sixBytes]
  · intro k d hk hw
    refine ⟨_, _, exec_write_error v m hq ho hk hw, List.append_assoc .., ?_⟩
    rw [strobes, transmits_append, transmits_pacedTx]
    exact strobesIn_sixBytes_failed v m s.bl hk _

end Sys2Proof.Machine

namespace Sys2Proof.Machine

/-! ## INITSEQ (43_initializer.md R140 to R142) -/

/-- The state in which INITSEQ starts to transmit: INITED has become 0 and BL 1 (R140). -/
def State.initStarted (s : State) : State := (s.setInited false).setBl true

/-- A run of INITSEQ writes INITED and BL first, and then sends its 36 bytes. -/
theorem runSeq_initseqSteps (s : State) (r : Response) :
    runSeq (initseqSteps s.cfg) r s
      = runSeq (sendSteps s.cfg.tDelay init36 ++ [.wait s.cfg.tSettleInit, .setINITED true]) r s.initStarted := by
  rw [initseqSteps_eq, runSeq_setINITED, runSeq_setBL]
  rfl

/-- A run of INITSEQ with all its transmits answered `Ok` waits for the settle delay and sets INITED (R141). -/
theorem runSeq_initseqSteps_ok {s : State} (r : Response) (hw : s.writesOk 36) :
    runSeq (initseqSteps s.cfg) r s
      = finish r ((waitFor s.cfg.tSettleInit (s.initStarted.afterSent init36)).setInited true) := by
  obtain ⟨rest, hw⟩ := hw
  rw [runSeq_initseqSteps]
  exact runSeq_send_ok init36 (s := s.initStarted) hw

/-- A run of INITSEQ whose transmit k, from 0, is answered with an error ends there (R142). -/
theorem runSeq_initseqSteps_error {s : State} {k : Nat} {d : Detail} (r : Response) (hk : k < 36)
    (hw : s.writeFailsAt k d) :
    runSeq (initseqSteps s.cfg) r s
      = raise (.transportError d)
          { (s.initStarted.afterSent (init36.take k)).afterFailed (init36.getD k 0#8) d with
            timer := if k = 0 then s.timer else 0 } := by
  obtain ⟨rest, hw⟩ := hw
  rw [runSeq_initseqSteps]
  exact runSeq_send_error init36 (s := s.initStarted) hk hw

/-- INITSEQ with its 36 transmits answered `Ok`. -/
theorem exec_initseq_ok {s : State} (hq : s.seq = .idle) (ho : s.isOpen = true) (hw : s.writesOk 36) :
    exec .initseq s = .next
      { s.afterSent init36 with
        bl := true
        inited := true
        trace := s.trace ++ pacedTx s.cfg.tDelay init36 ++ [.delay s.cfg.tSettleInit]
        timer := 0
        rsp := s.rsp ++ [.ok] } := by
  rw [exec_initseq_of_ready hq ho, runSeq_initseqSteps_ok .ok hw, finish_of_idle (by exact hq)]
  rfl

/-- Settles O29: the run ends at its first error, after the writes of INITED and BL. -/
theorem initseqStopsAtItsFailingTransmit : Obligations.InitseqStopsAtItsFailingTransmit := by
  intro s k d hq ho hk hw
  rw [exec_initseq_of_ready hq ho, runSeq_initseqSteps_error .ok hk hw, raise, finish_of_idle (by exact hq)]
  rfl

/-- The strobes of WRITEs under one backlight: the nibbles of each value, high first (20_memory.md R58, R68). -/
theorem strobesIn_wireBytes (bl : Bool) (ws : List (Bool × Byte)) :
    strobesIn ((wireBytes bl ws).map (Transmit.mk true))
      = ws.flatMap fun w => [(w.1, w.2.extractLsb' 4 4), (w.1, w.2.extractLsb' 0 4)] := by
  induction ws with
  | nil => rfl
  | cons w ws ih =>
    rw [wireBytes_cons, sixBytes_eq_frameBytes, modeOfRs_eq_data, List.map_append, List.map_append, List.append_assoc,
      strobesIn_nibble_append, strobesIn_nibble_append, ih]
    rfl

/-- The bytes of INITSEQ are read as the nibbles of its six commands (R141). -/
theorem strobes_pacedTx_init36 (d : Duration) :
    strobes (pacedTx d init36)
      = initSeq.flatMap fun v => [(false, v.extractLsb' 4 4), (false, v.extractLsb' 0 4)] := by
  rw [strobes, transmits_pacedTx, ← wireBytes_initSeq, strobesIn_wireBytes, List.flatMap_map]

/-- Settles O28: the run of the 36 bytes with the settle delay after it, and the nibbles of the six commands. -/
theorem initseqSendsTheSixCommands : Obligations.InitseqSendsTheSixCommands := by
  refine ⟨fun _ => exec_initseq_ok, fun d => ?_, rfl⟩
  exact (strobes_pacedTx_init36 d).trans (by decide)

end Sys2Proof.Machine

namespace Sys2Proof.Machine

/-! ## MOVECURSOR (44_cursor.md R150 to R156) -/

/-- The rows that have an entry, with the entries as numbers (10_state.md R30). -/
theorem tableT_eq_some_iff {row : Nat} {base : Byte} :
    tableT row = some base ↔ (row, base.toNat) ∈ [(1, 0x80), (2, 0xC0), (3, 0x94), (4, 0xD4)] := by
  unfold tableT
  split <;> simp_all [BitVec.toNat_eq, eq_comm]

theorem exists_tableT {row : Nat} (h1 : 1 ≤ row) (h4 : row ≤ 4) : ∃ base, tableT row = some base := by
  have hcases : row = 1 ∨ row = 2 ∨ row = 3 ∨ row = 4 := by omega
  rcases hcases with rfl | rfl | rfl | rfl <;> exact ⟨_, rfl⟩

theorem tableT_eq_none {row : Nat} (h : 4 < row) : tableT row = none := by
  refine Option.eq_none_iff_forall_ne_some.2 fun base hbase => ?_
  have hmem := tableT_eq_some_iff.1 hbase
  simp only [List.mem_cons, Prod.mk.injEq, List.not_mem_nil, or_false] at hmem
  omega

/-- Every entry is a set-DDRAM-address command, at most that of row 4 (10_state.md R30, 30_encoding.md R89). -/
theorem tableT_bounds {row : Nat} {base : Byte} (h : tableT row = some base) :
    0x80 ≤ base.toNat ∧ base.toNat ≤ 0xD4 := by
  have hmem := tableT_eq_some_iff.1 h
  simp only [List.mem_cons, Prod.mk.injEq, List.not_mem_nil, or_false] at hmem
  omega

/-! ### The checks and the byte (R150 to R153) -/

theorem cursorByte_of_bad_row {c : Config} {row : Nat} (col : Nat) (h : row < 1 ∨ row > c.rows) :
    cursorByte c row col = .error .rowOutOfRange := if_pos h

theorem cursorByte_of_bad_col {c : Config} {row col : Nat} (h1 : 1 ≤ row) (hr : row ≤ c.rows) (hc : col > c.cols) :
    cursorByte c row col = .error .colOutOfRange := by
  rw [cursorByte, if_neg (by omega), if_pos hc]

theorem cursorByte_of_no_entry {c : Config} {row col : Nat} (h1 : 1 ≤ row) (hr : row ≤ c.rows) (hc : col ≤ c.cols)
    (h : tableT row = none) : cursorByte c row col = .error .rowOutOfRange := by
  rw [cursorByte, if_neg (by omega), if_neg (by omega), h]

theorem cursorByte_of_entry {c : Config} {row col : Nat} {base : Byte} (h : tableT row = some base)
    (hr : row ≤ c.rows) (hc : col ≤ c.cols) : cursorByte c row col = .ok (BitVec.ofNat 8 (base.toNat + col)) := by
  have h1 : row ≠ 0 := by rintro rfl; cases h
  rw [cursorByte, if_neg (by omega), if_neg (by omega), h]

/-- What an accepted pair of operands comes to. -/
theorem cursorByte_ok {c : Config} {row col : Nat} {v : Byte} (h : cursorByte c row col = .ok v) :
    col ≤ c.cols ∧ ∃ base, tableT row = some base ∧ v = BitVec.ofNat 8 (base.toNat + col) := by
  unfold cursorByte at h
  split at h
  · cases h
  split at h
  · cases h
  · next hc =>
    split at h <;> cases h
    next base hbase => exact ⟨by omega, base, hbase, rfl⟩

/-! ### The operation -/

/-- MOVECURSOR with a check that fails answers its error and changes nothing else (R151). -/
theorem exec_movecursor_of_rejected {s : State} {row col : Nat} {e : Err} (hq : s.seq = .idle) (ho : s.isOpen = true)
    (h : cursorByte s.cfg row col = .error e) :
    exec (.movecursor row col) s = .next { s with rsp := s.rsp ++ [.err e] } := by
  have hplan : plan (.movecursor row col) s = .error e := by rw [plan, cursorSteps, h]
  rw [exec_of_ready (i := .movecursor row col) hq (fun _ => ho) nofun, hplan, runPlan_error, raise, finish_of_idle hq]

/-- Settles O30: an accepted MOVECURSOR is WRITE of its byte, and the table's entries are the four numbers. -/
theorem movecursorSendsTheAddressCommand : Obligations.MovecursorSendsTheAddressCommand := by
  intro s row col base hq ho hw hmem hr hc
  have hbase : base < 256 := by
    simp only [List.mem_cons, Prod.mk.injEq, List.not_mem_nil, or_false] at hmem
    omega
  have hnat : (BitVec.ofNat 8 base).toNat = base := (BitVec.toNat_ofNat ..).trans (Nat.mod_eq_of_lt hbase)
  have hentry : tableT row = some (BitVec.ofNat 8 base) := tableT_eq_some_iff.2 (by rwa [hnat])
  have hwrap : BitVec.ofNat 8 ((base + col) % 256) = BitVec.ofNat 8 (base + col) :=
    BitVec.eq_of_toNat_eq (by simp)
  rw [exec_movecursor_of_accepted (cursorByte_of_entry hentry hr hc), exec_write_ok _ _ hq ho hw, hnat, hwrap]

/-- Settles O31, check by check. -/
theorem movecursorRejectsInOrder : Obligations.MovecursorRejectsInOrder := by
  intro s row col hq ho
  refine ⟨fun hrow => ?_, fun h1 hr hc => ?_, fun h4 hr hc => ?_⟩ <;> refine exec_movecursor_of_rejected hq ho ?_
  · exact cursorByte_of_bad_row col hrow
  · exact cursorByte_of_bad_col h1 hr hc
  · exact cursorByte_of_no_entry (by omega) hr hc (tableT_eq_none h4)

/-- Two accepted pairs whose entry and column have the same sum are one operation, in every state. -/
theorem exec_movecursor_eq_of_sum_eq {s : State} {row row' col col' : Nat} {base base' : Byte}
    (h : tableT row = some base) (h' : tableT row' = some base') (hr : row ≤ s.cfg.rows) (hr' : row' ≤ s.cfg.rows)
    (hc : col ≤ s.cfg.cols) (hc' : col' ≤ s.cfg.cols) (hsum : base.toNat + col = base'.toNat + col') :
    exec (.movecursor row col) s = exec (.movecursor row' col') s := by
  rw [exec_movecursor_of_accepted (cursorByte_of_entry h hr hc),
    exec_movecursor_of_accepted (cursorByte_of_entry h' hr' hc'), hsum]

/-- Settles O32: the entries of rows 1 and 3, and of rows 2 and 4, are 20 apart. -/
theorem rowsAliasTwentyColumnsApart : Obligations.RowsAliasTwentyColumnsApart := by
  intro s col hcol
  constructor <;> intro hrows
  · have hsum : (0x80#8).toNat + (col + 20) = (0x94#8).toNat + col := by
      change 0x80 + (col + 20) = 0x94 + col
      omega
    exact exec_movecursor_eq_of_sum_eq rfl rfl (by omega) hrows hcol (by omega) hsum
  · have hsum : (0xC0#8).toNat + (col + 20) = (0xD4#8).toNat + col := by
      change 0xC0 + (col + 20) = 0xD4 + col
      omega
    exact exec_movecursor_eq_of_sum_eq rfl rfl (by omega) hrows hcol (by omega) hsum

/-- Up to column 43 no accepted byte wraps (R156): 0xD4, the largest entry, leaves room for 43. -/
theorem cursorByte_toNat {c : Config} {row col : Nat} {v : Byte} (hcols : c.cols ≤ 43)
    (h : cursorByte c row col = .ok v) : ∃ base, tableT row = some base ∧ v.toNat = base.toNat + col := by
  obtain ⟨hc, base, hbase, rfl⟩ := cursorByte_ok h
  obtain ⟨-, hmax⟩ := tableT_bounds hbase
  exact ⟨base, hbase, (BitVec.toNat_ofNat ..).trans (Nat.mod_eq_of_lt (by omega))⟩

/-- The column at which entry and column fill the 8 bits: the next one is the first that wraps (R156). -/
theorem cursorByte_at_wrap {c : Config} {row col : Nat} {base : Byte} (h : tableT row = some base) (hr : row ≤ c.rows)
    (hsum : base.toNat + col = 255) (hc : col + 1 ≤ c.cols) :
    cursorByte c row (col + 1) = .ok 0#8 ∧ cursorByte c row col = .ok 0xFF#8 := by
  rw [cursorByte_of_entry h hr hc, cursorByte_of_entry h hr (by omega), ← Nat.add_assoc, hsum]
  exact ⟨rfl, rfl⟩

/-- Settles O33: a row of a well-formed geometry has an entry, and the wrap points are computed from the entries. -/
theorem cursorByteWrapsOnlyAboveColumn43 : Obligations.CursorByteWrapsOnlyAboveColumn43 := by
  refine ⟨fun c row col ⟨_, hrows, _⟩ h1 hr hc => ?_, fun c row col v hcols hv => ?_, fun c hrows => ?_⟩
  · obtain ⟨base, hbase⟩ := exists_tableT h1 (hr.trans hrows)
    exact ⟨_, cursorByte_of_entry hbase hr hc⟩
  · obtain ⟨base, hbase, hsum⟩ := cursorByte_toNat hcols hv
    obtain ⟨hmin, -⟩ := tableT_bounds hbase
    have hmsb : v.msb = true := by rw [BitVec.msb_eq_decide, decide_eq_true_iff]; omega
    exact ⟨hmsb, base, hbase, hsum⟩
  · have hrow {row : Nat} (h : row ≤ 4) : row ≤ c.rows := hrows ▸ h
    exact ⟨cursorByte_at_wrap (col := 43) rfl (hrow (by decide)) rfl,
      cursorByte_at_wrap (col := 63) rfl (hrow (by decide)) rfl,
      cursorByte_at_wrap (col := 107) rfl (hrow (by decide)) rfl,
      cursorByte_at_wrap (col := 127) rfl (hrow (by decide)) rfl⟩

end Sys2Proof.Machine

namespace Sys2Proof.Machine

/-! ## How an operation answers (45_facade.md R167, R168, 60_exceptions.md R212) -/

/-- A block whose SEQ holds an open at its head has that request on the BUS channel (R10, 20_memory.md R53). -/
theorem outstanding_of_busOpen {s : State} {id : BusId} {addr : BusAddr} {ms : List MicroOp} {r : Response}
    (h : s.seq = .busy (.busOpen id addr :: ms) r) : s.outstanding = .opening id addr := by
  rw [State.outstanding, h]

/-- The same of a write, which goes out with H. -/
theorem outstanding_of_busWrite {s : State} {b : Byte} {ms : List MicroOp} {r : Response}
    (h : s.seq = .busy (.busWrite b :: ms) r) : s.outstanding = .writing s.handle b := by
  rw [State.outstanding, h]

/-- Settles O12, for each of the three ways a run can go: only a request to the transport holds it. -/
theorem anOperationEndsUnlessUnanswered : Obligations.AnOperationEndsUnlessUnanswered := by
  intro i s t hx
  obtain ⟨-, ⟨e, -, rfl⟩ | ⟨todo, -, hran, -⟩⟩ := exec_ran hx
  · exact .inl ⟨rfl, _, rfl⟩
  · cases hran with
    | ended hseq hrsp | aborted _ _ _ _ _ _ hseq hrsp => exact .inl ⟨hseq, _, hrsp⟩
    | waiting _ m _ _ hm hseq hrsp _ _ hopen hwrite =>
      refine .inr ⟨hrsp, ?_⟩
      cases m with
      | busOpen id addr => exact .inl ⟨id, addr, outstanding_of_busOpen hseq, hopen id addr rfl⟩
      | busWrite b => exact .inr ⟨t.handle, b, outstanding_of_busWrite hseq, hwrite b rfl⟩
      | _ => cases hm

/-- Settles O13: exec makes no check but these three before it runs the plan. -/
theorem everyInstructionAnswersANextState : Obligations.EveryInstructionAnswersANextState :=
  fun _ _ hq ho hc => ⟨_, exec_of_ready hq ho hc⟩

theorem exec_of_needsOpen_closed {i : Instr} {s : State} (hq : s.seq = .idle) (ho : s.isOpen = false)
    (hi : needsOpen i = true) : exec i s = .refused .notOpen := by
  rw [exec_eq, whenIdle_idle hq, hi, ho]
  rfl

/-- Settles O43: the six are among the instructions of `needsOpen`, and no other instruction has that precondition. -/
theorem transmittingOperationsAreRefusedWhileClosed : Obligations.TransmittingOperationsAreRefusedWhileClosed := by
  intro s hq ho
  have hrefused {i : Instr} (hi : needsOpen i = true) : exec i s = .refused .notOpen :=
    exec_of_needsOpen_closed hq ho hi
  have hnext {i : Instr} (hi : needsOpen i = false) : ∃ t, exec i s = .next t :=
    everyInstructionAnswersANextState i s hq (by simp [hi]) fun _ => ho
  exact ⟨fun _ => hrefused rfl, fun _ _ => hrefused rfl, hrefused rfl, fun _ _ => hrefused rfl, hrefused rfl,
    fun _ _ _ => hrefused rfl, fun _ _ _ => hnext rfl, fun _ => hnext rfl, hnext rfl, hnext rfl, hnext rfl⟩

/-! ## SETBL and CLOSE (45_facade.md R165, R166) -/

/-- Settles O41: the plan of SETBL is the one write of BL. -/
theorem setblWritesOnlyTheBacklight : Obligations.SetblWritesOnlyTheBacklight := by
  refine ⟨fun on s hq => ?_, fun _ => rfl⟩
  rw [exec_of_ready (i := .setbl on) hq nofun nofun, plan, runPlan_ok, runSeq_setBL, runSeq_nil,
    finish_of_idle (by exact hq)]
  rfl

/-- Settles O42: H and the draw counter are what `dropHandle` leaves. -/
theorem closeReleasesTheHandle : Obligations.CloseReleasesTheHandle := by
  refine ⟨fun s hq ho => ⟨s.dropHandle.handle, s.dropHandle.draws, ?_⟩, fun s hq ho => ?_, rfl⟩ <;>
    obtain ⟨t, hx⟩ := everyInstructionAnswersANextState .close s hq nofun nofun
  · rw [hx, exec_close_of_open ho hx, finish_of_idle (by exact hq)]
    rfl
  · rw [hx, exec_close_of_closed ho hx, finish_of_idle hq]

/-! ## OPEN and INIT (45_facade.md R160, R161) -/

theorem exec_openBus_of_ready {s : State} (hq : s.seq = .idle) (ho : s.isOpen = false) :
    exec .openBus s = .next (runSeq (openSteps s.cfg ++ []) .ok s) :=
  exec_of_ready hq nofun fun _ => ho

theorem exec_openBus_of_open {s : State} (hq : s.seq = .idle) (ho : s.isOpen = true) :
    exec .openBus s = .refused .alreadyOpen := by
  rw [exec_eq, whenIdle_idle hq, ho]
  rfl

section

variable {s : State} {rest : List OpenAnswer}

/-- OPEN of a closed block, granted with the handle h. -/
theorem exec_openBus_handle {h : Handle} (hq : s.seq = .idle) (ho : s.isOpen = false)
    (hb : s.busOpens = .handle h :: rest) :
    exec .openBus s = .next { s.granted h rest with rsp := s.rsp ++ [.ok] } := by
  rw [exec_openBus_of_ready hq ho, runSeq_openSteps_handle hb, runSeq_nil, finish_of_idle (by exact hq)]
  rfl

/-- OPEN of a closed block, answered with the error d. -/
theorem exec_openBus_error {d : Detail} (hq : s.seq = .idle) (ho : s.isOpen = false)
    (hb : s.busOpens = .error d :: rest) : exec .openBus s = .next (s.denied d rest) := by
  rw [exec_openBus_of_ready hq ho, runSeq_openSteps_error hb]

/-- The state after a failed open in fields: its answer is used up and on RSP, with no write of BL, OPEN or H. -/
theorem denied_of_idle (d : Detail) (hq : s.seq = .idle) :
    s.denied d rest =
      { s with
        trace := s.trace ++ [.openFail]
        bus := s.bus ++ [.opened s.cfg.busId s.cfg.busAddr (.error d)]
        busOpens := rest
        rsp := s.rsp ++ [.err (.transportError d)] } := by
  rw [State.denied, raise, finish_of_idle (by exact hq)]
  rfl

/-- INIT of a closed block goes on as INITSEQ with the handle it was granted. -/
theorem exec_init_handle {h : Handle} (hq : s.seq = .idle) (ho : s.isOpen = false)
    (hb : s.busOpens = .handle h :: rest) : exec .init s = exec .initseq (s.granted h rest) :=
  exec_init_of_granted (exec_openBus_handle hq ho hb) rfl

/-- INIT of a closed block ends with the error of its open. -/
theorem exec_init_error {d : Detail} (hq : s.seq = .idle) (ho : s.isOpen = false)
    (hb : s.busOpens = .error d :: rest) : exec .init s = .next (s.denied d rest) :=
  exec_init_of_denied (exec_openBus_error hq ho hb) (by simp [State.denied, raise, finish]) rfl

end

/-- Settles O34, for each answer to the open and for the block that is open already. -/
theorem openTakesTheHandle : Obligations.OpenTakesTheHandle := by
  refine ⟨fun s h rest hq ho hb => ?_, fun s d rest hq ho hb => ?_, fun s => exec_openBus_of_open, rfl⟩
  · rw [exec_openBus_handle hq ho hb]
    rfl
  · rw [exec_openBus_error hq ho hb, denied_of_idle d hq]

/-- Settles O35: after a granted open INIT is the INITSEQ of O28, with the new handle. -/
theorem initOpensThenInitialises : Obligations.InitOpensThenInitialises := by
  refine ⟨fun s h rest hq ho hb hw => ?_, fun s d rest hq ho hb => ?_, fun s => exec_init_eq_exec_initseq, rfl⟩
  · rw [exec_init_handle hq ho hb, exec_initseq_ok (s := s.granted h rest) hq rfl hw]
    rfl
  · rw [exec_init_error hq ho hb, denied_of_idle d hq]

/-- Settles O36: after a granted open INIT is the failing INITSEQ of O29, which does not give the handle back. -/
theorem initKeepsTheHandleWhenInitseqFails : Obligations.InitKeepsTheHandleWhenInitseqFails := by
  intro s h rest k d hq ho hb hk hw
  rw [exec_init_handle hq ho hb, initseqStopsAtItsFailingTransmit (s.granted h rest) k d hq rfl hk hw]
  simp [State.granted, State.afterSent, State.afterFailed, pacedTx, hk.le]

/-! ## CLEAR (45_facade.md R162) -/

theorem exec_clear_ok {s : State} (hq : s.seq = .idle) (ho : s.isOpen = true) (hw : s.writesOk 6) :
    exec .clear s = .next
      { s.afterSent (sixBytes 0x01#8 .command s.bl) with
        timer := 0
        rsp := s.rsp ++ [.ok] } :=
  exec_write_ok 0x01#8 .command hq ho hw

theorem State.writesOk_left {s : State} {m n : Nat} (h : s.writesOk (m + n)) : s.writesOk m := by
  obtain ⟨rest, hw⟩ := h
  exact ⟨List.replicate n .ok ++ rest, by rw [hw, List.replicate_add, List.append_assoc]⟩

/-- A run of transmits uses up its own answers and leaves those for what follows. -/
theorem State.writesOk_afterSent {s : State} {bs : List Byte} {n : Nat} (h : s.writesOk (bs.length + n)) :
    (s.afterSent bs).writesOk n := by
  obtain ⟨rest, hw⟩ := h
  refine ⟨rest, ?_⟩
  rw [State.afterSent, hw, List.replicate_add, List.append_assoc]
  exact List.drop_left' List.length_replicate

/-- Settles O37: CLEAR is WRITE of 0x01, and the first of two leaves BL and OPEN for the second. -/
theorem clearSendsTheClearCommand : Obligations.ClearSendsTheClearCommand := by
  refine ⟨fun s => exec_clear_ok, fun s hq ho hw => ?_, rfl⟩
  have hrest : (s.afterSent (sixBytes 0x01#8 .command s.bl)).writesOk 6 := State.writesOk_afterSent hw
  exact ⟨_, _, exec_clear_ok hq ho (State.writesOk_left (n := 6) hw), exec_clear_ok (by exact hq) (by exact ho) hrest,
    rfl, rfl⟩

end Sys2Proof.Machine

namespace Sys2Proof.Machine

/-! ## PRINT (45_facade.md R163, R164) -/

/-- The bytes of a PRINT: the cursor command v, then the text (R163). -/
def printBytes (bl : Bool) (v : Byte) (text : List Byte) : List Byte :=
  sixBytes v .command bl ++ text.flatMap (fun ch => sixBytes ch .data bl)

theorem printBytes_length (bl : Bool) (v : Byte) (text : List Byte) :
    (printBytes bl v text).length = 6 * (text.length + 1) := by
  rw [printBytes, List.length_append, sixBytes_length, textBytes_length]
  omega

section

variable {s : State} {row col : Nat} {text : List Byte}

/-! ### The checks (R163, R164) -/

theorem plan_print_of_overflow (row : Nat) (h : text.length + col > s.cfg.cols) :
    plan (.print row col text) s = .error .colOutOfRange := if_pos h

theorem plan_print_of_empty (row : Nat) (h : col ≤ s.cfg.cols) : plan (.print row col []) s = .ok [] := by
  have hfit : ¬ ([] : List Byte).length + col > s.cfg.cols := by simpa using h
  exact (if_neg hfit).trans (if_pos rfl)

/-- Past its own two checks PRINT goes on as MOVECURSOR. -/
theorem plan_print_of_fits (row : Nat) (hne : text ≠ []) (hfit : text.length + col ≤ s.cfg.cols) :
    plan (.print row col text) s
      = (cursorSteps s.cfg s.bl row col).map (· ++ textSteps s.cfg.tDelay s.bl text) := by
  have hlen : text.length ≠ 0 := mt List.eq_nil_of_length_eq_zero hne
  rw [plan, printSteps, if_neg hfit.not_gt, if_neg hlen]
  cases cursorSteps s.cfg s.bl row col <;> rfl

theorem plan_print_of_bad_cursor {e : Err} (hne : text ≠ []) (hfit : text.length + col ≤ s.cfg.cols)
    (h : cursorByte s.cfg row col = .error e) : plan (.print row col text) s = .error e := by
  rw [plan_print_of_fits row hne hfit, cursorSteps, h]
  rfl

/-- An accepted PRINT is one run of transmits (20_memory.md R59). -/
theorem plan_print_of_accepted {v : Byte} (hne : text ≠ []) (hfit : text.length + col ≤ s.cfg.cols)
    (h : cursorByte s.cfg row col = .ok v) :
    plan (.print row col text) s = .ok (sendSteps s.cfg.tDelay (printBytes s.bl v text)) := by
  rw [plan_print_of_fits row hne hfit, cursorSteps, h, printBytes, sendSteps_append, ← writeSteps_eq_sendSteps,
    ← textSteps_eq_sendSteps]
  rfl

/-- With a column that fits, row 0, a row above ROWS and a row without an entry have one error (44_cursor.md R151). -/
theorem cursorByte_of_no_row {c : Config} (hc : col ≤ c.cols) (h : row = 0 ∨ row > c.rows ∨ row > 4) :
    cursorByte c row col = .error .rowOutOfRange := by
  by_cases hbad : row < 1 ∨ row > c.rows
  · exact cursorByte_of_bad_row col hbad
  · exact cursorByte_of_no_entry (by omega) (by omega) hc (tableT_eq_none (by omega))

/-- The cursor byte of an accepted pair, with the table's entries as numbers (R153, 10_state.md R30). -/
theorem cursorByte_of_mem_table {c : Config} {base : Nat}
    (hmem : (row, base) ∈ [(1, 0x80), (2, 0xC0), (3, 0x94), (4, 0xD4)]) (hr : row ≤ c.rows) (hc : col ≤ c.cols) :
    cursorByte c row col = .ok (BitVec.ofNat 8 ((base + col) % 256)) := by
  have hbase : base < 256 := by
    simp only [List.mem_cons, Prod.mk.injEq, List.not_mem_nil, or_false] at hmem
    omega
  have hnat : (BitVec.ofNat 8 base).toNat = base := (BitVec.toNat_ofNat ..).trans (Nat.mod_eq_of_lt hbase)
  have hwrap : BitVec.ofNat 8 ((base + col) % 256) = BitVec.ofNat 8 (base + col) := BitVec.eq_of_toNat_eq (by simp)
  rw [cursorByte_of_entry (tableT_eq_some_iff.2 (by rwa [hnat])) hr hc, hnat, hwrap]

/-! ### The operation -/

/-- An operation whose checks raise an error adds it to RSP and does nothing else (60_exceptions.md R202). -/
theorem exec_of_rejected {i : Instr} {e : Err} (hq : s.seq = .idle) (ho : s.isOpen = true)
    (hp : plan i s = .error e) : exec i s = .next { s with rsp := s.rsp ++ [.err e] } := by
  have hi : i ≠ .openBus := by rintro rfl; cases hp
  rw [exec_of_ready hq (fun _ => ho) (absurd · hi), hp, runPlan_error, raise, finish_of_idle hq]

/-- The empty text transmits nothing, and its row is not looked at (R164). -/
theorem exec_print_of_empty (row : Nat) (hq : s.seq = .idle) (ho : s.isOpen = true) (hc : col ≤ s.cfg.cols) :
    exec (.print row col []) s = .next { s with rsp := s.rsp ++ [.ok] } := by
  rw [exec_of_ready (i := .print row col []) hq (fun _ => ho) nofun, plan_print_of_empty row hc, runPlan_ok,
    runSeq_nil, finish_of_idle hq]
  rfl

theorem exec_print_of_accepted {v : Byte} (hq : s.seq = .idle) (ho : s.isOpen = true) (hne : text ≠ [])
    (hfit : text.length + col ≤ s.cfg.cols) (h : cursorByte s.cfg row col = .ok v) :
    exec (.print row col text) s
      = .next (runSeq (sendSteps s.cfg.tDelay (printBytes s.bl v text) ++ []) .ok s) := by
  rw [exec_of_ready (i := .print row col text) hq (fun _ => ho) nofun, plan_print_of_accepted hne hfit h, runPlan_ok,
    List.append_nil]
  rfl

end

/-- Settles O38: the run of the bytes of an accepted PRINT, all answered `Ok`. -/
theorem printSendsTheCursorThenTheText : Obligations.PrintSendsTheCursorThenTheText := by
  intro s row col base text hq ho hw hne hfit hmem hr
  have hbyte := cursorByte_of_mem_table hmem hr (Nat.le_of_add_left_le hfit)
  obtain ⟨rest, hw⟩ := hw
  rw [← printBytes_length s.bl (BitVec.ofNat 8 ((base + col) % 256)) text] at hw
  rw [exec_print_of_accepted hq ho hne hfit hbyte, runSeq_send_ok _ hw, runSeq_nil, finish_of_idle (by exact hq)]
  rfl

/-- Settles O39, check by check. -/
theorem printEndsEarlyInOrder : Obligations.PrintEndsEarlyInOrder := by
  intro s row col text hq ho
  refine ⟨fun hover => ?_, ?_, fun hne hfit hrow => ?_⟩
  · exact exec_of_rejected hq ho (plan_print_of_overflow row hover)
  · rintro rfl hc
    exact exec_print_of_empty row hq ho hc
  · have hbyte := cursorByte_of_no_row (Nat.le_of_add_left_le hfit) hrow
    exact exec_of_rejected hq ho (plan_print_of_bad_cursor hne hfit hbyte)

/-- Settles O40: the run of the bytes of an accepted PRINT up to its first error. -/
theorem printStopsAtItsFailingTransmit : Obligations.PrintStopsAtItsFailingTransmit := by
  intro s row col base text k d hq ho hne hfit hmem hr hk hw
  have hbyte := cursorByte_of_mem_table hmem hr (Nat.le_of_add_left_le hfit)
  obtain ⟨rest, hw⟩ := hw
  rw [← printBytes_length s.bl (BitVec.ofNat 8 ((base + col) % 256)) text] at hk
  rw [exec_print_of_accepted hq ho hne hfit hbyte, runSeq_send_error _ hk hw, raise, finish_of_idle (by exact hq)]
  rfl

end Sys2Proof.Machine

namespace Sys2Proof.Machine

/-! ## Errors (60_exceptions.md R190 to R202)

One inversion lemma says the two ways an instruction ends with an error: a check of its plan raised it, or the transport
answered a request of its plan with it. -/

/-- Settles O51: the table of R191, entry by entry. -/
theorem statusCodesAreTheTables : Obligations.StatusCodesAreTheTables :=
  ⟨rfl, rfl, rfl, rfl, rfl, fun _ => ⟨rfl, rfl⟩⟩

theorem planResponse_ne_err (i : Instr) (e : Err) : planResponse i ≠ .err e := by
  cases i <;> nofun

/-- How an instruction can end with an error: a check raised it before anything else was done (R202), or a request of the
plan was answered with it, which leaves the request's fail event last (R201). -/
theorem exec_err_cases {i : Instr} {s t : State} {e : Err} (hx : exec i s = .next t)
    (hrsp : t.rsp = s.rsp ++ [.err e]) :
    (plan i s = .error e ∧ t = { s with rsp := s.rsp ++ [.err e] }) ∨
    (∃ pre m post d, plan i s = .ok (pre ++ m :: post) ∧ m.isRequest = true ∧ e = .transportError d ∧
      t.seq = .idle ∧ t.trace = s.trace ++ (pre.flatMap okEvents ++ [failEvent m])) := by
  obtain ⟨⟨hq, -, -⟩, ⟨e', hp, rfl⟩ | ⟨todo, hp, hran, -⟩⟩ := exec_ran hx
  · rw [raise, finish_of_idle hq] at hrsp ⊢
    cases List.append_cancel_left hrsp
    exact .inl ⟨hp, rfl⟩
  · cases hran with
    | ended _ hrsp' =>
      have hr : planResponse i = .err e := by simpa [hrsp'] using hrsp
      exact absurd hr (planResponse_ne_err i e)
    | aborted pre m post d htodo hm hseq hrsp' htrace _ =>
      have he : e = .transportError d := by simpa [hrsp', eq_comm] using hrsp
      exact .inr ⟨pre, m, post, d, htodo ▸ hp, hm, he, hseq, htrace⟩
    | waiting _ _ _ _ _ _ hrsp' => simp [hrsp'] at hrsp

/-- A range error is never the transport's: a check raised it. -/
theorem exec_range_err {i : Instr} {s t : State} {e : Err} (hx : exec i s = .next t)
    (hrsp : t.rsp = s.rsp ++ [.err e]) (he : e = .rowOutOfRange ∨ e = .colOutOfRange) :
    plan i s = .error e ∧ t = { s with rsp := s.rsp ++ [.err e] } := by
  rcases exec_err_cases hx hrsp with h | ⟨_, _, _, d, -, -, rfl, -⟩
  · exact h
  · rcases he with he | he <;> cases he

/-- A transport error is never a check's: a request of the plan was answered with it. -/
theorem exec_transport_err {i : Instr} {s t : State} {d : Detail} (hx : exec i s = .next t)
    (hrsp : t.rsp = s.rsp ++ [.err (.transportError d)]) :
    ∃ pre m post, plan i s = .ok (pre ++ m :: post) ∧ m.isRequest = true ∧ t.seq = .idle ∧
      t.trace = s.trace ++ (pre.flatMap okEvents ++ [failEvent m]) := by
  rcases exec_err_cases hx hrsp with ⟨hp, -⟩ | ⟨pre, m, post, _, hp, hm, -, hseq, htrace⟩
  · obtain ⟨-, he | he⟩ := plan_error hp <;> cases he
  · exact ⟨pre, m, post, hp, hm, hseq, htrace⟩

/-- FRAME, SETBL and CLOSE ask nothing of the transport that it could refuse (R194, R166). -/
theorem plan_without_request {i : Instr} {s : State} {todo : List MicroOp}
    (hi : (∃ v m on, i = .frame v m on) ∨ (∃ on, i = .setbl on) ∨ i = .close) (hp : plan i s = .ok todo) :
    ∀ m ∈ todo, m.isRequest = false := by
  rcases hi with ⟨v, md, on, rfl⟩ | ⟨on, rfl⟩ | rfl
  · cases hp
    nofun
  · cases hp
    simp [MicroOp.isRequest]
  · cases ho : s.isOpen
    · cases (plan_close_of_closed ho).symm.trans hp
      nofun
    · cases (plan_close_of_open ho).symm.trans hp
      simp [MicroOp.isRequest]

theorem exec_transport_err_instr {i : Instr} {s t : State} {d : Detail} (hx : exec i s = .next t)
    (hrsp : t.rsp = s.rsp ++ [.err (.transportError d)]) :
    (∀ v m on, i ≠ .frame v m on) ∧ (∀ on, i ≠ .setbl on) ∧ i ≠ .close := by
  obtain ⟨pre, m, post, hp, hm, -⟩ := exec_transport_err hx hrsp
  have hno : ¬((∃ v m on, i = .frame v m on) ∨ (∃ on, i = .setbl on) ∨ i = .close) := fun hi => by
    have hfalse := plan_without_request hi hp m (by simp)
    exact Bool.false_ne_true (hfalse.symm.trans hm)
  exact ⟨fun v m on h => hno (.inl ⟨v, m, on, h⟩), fun on h => hno (.inr (.inl ⟨on, h⟩)), fun h => hno (.inr (.inr h))⟩

/-- Settles O52: the range errors are those of `plan_error`, a transport error needs a request in the plan. -/
theorem errorsFollowTheMatrix : Obligations.ErrorsFollowTheMatrix := by
  intro i s t e hx hrsp
  have hrange (he : e = .rowOutOfRange ∨ e = .colOutOfRange) :
      (∃ row col, i = .movecursor row col) ∨ (∃ row col text, i = .print row col text) := by
    obtain ⟨hp, -⟩ := exec_range_err hx hrsp he
    exact (plan_error hp).1
  refine ⟨fun he => hrange (.inl he), fun he => hrange (.inr he), ?_⟩
  rintro d rfl
  exact exec_transport_err_instr hx hrsp

/-- Settles O53: the checks stand before the first micro-operation. -/
theorem rangeErrorsArePrecise : Obligations.RangeErrorsArePrecise := by
  intro i s t e hx hrsp he
  obtain ⟨-, ht⟩ := exec_range_err hx hrsp he
  exact ht

/-! ### What an error leaves (R200, R201) -/

theorem failEvent_of_isRequest {m : MicroOp} (h : m.isRequest = true) :
    failEvent m = .openFail ∨ ∃ b, failEvent m = .txFail b := by
  cases m with
  | busOpen => exact .inl rfl
  | busWrite b => exact .inr ⟨b, rfl⟩
  | _ => cases h

/-- An OPEN that ends with an error was denied. -/
theorem exec_openBus_err {s t : State} {e : Err} (hx : exec .openBus s = .next t)
    (hrsp : t.rsp = s.rsp ++ [.err e]) : ∃ d rest, t = s.denied d rest := by
  rw [exec_openBus_eq hx] at hrsp ⊢
  rcases runSeq_openSteps_cases [] .ok s with ⟨h, rest, -, hrun⟩ | ⟨d, rest, -, hrun⟩ | ⟨-, hrun⟩ <;>
    rw [hrun] at hrsp ⊢
  · simp [State.granted, finish] at hrsp
  · exact ⟨d, rest, rfl⟩
  · simp at hrsp

/-- After an error BL, OPEN, H and INITED are as they were, but where INIT or INITSEQ had begun to write them. -/
theorem exec_err_keeps_control {i : Instr} {s t : State} {e : Err} (hx : exec i s = .next t)
    (hrsp : t.rsp = s.rsp ++ [.err e]) (hinit : i ≠ .init) (hinitseq : i ≠ .initseq) :
    t.bl = s.bl ∧ t.isOpen = s.isOpen ∧ t.handle = s.handle ∧ t.inited = s.inited := by
  rcases exec_err_cases hx hrsp with ⟨-, rfl⟩ | ⟨_, _, _, d, -, -, rfl, -⟩
  · exact ⟨rfl, rfl, rfl, rfl⟩
  · obtain ⟨-, hsetbl, hclose⟩ := exec_transport_err_instr hx hrsp
    by_cases hopen : i = .openBus
    · subst hopen
      obtain ⟨d, rest, rfl⟩ := exec_openBus_err hx hrsp
      exact ⟨rfl, rfl, rfl, rfl⟩
    · have hhandle : t.handle = s.handle := by
        by_contra hne
        rcases exec_handle_ne hx hne with ⟨h, -⟩ | ⟨h, -⟩ | ⟨h, -⟩
        · exact hopen h
        · exact hinit h
        · exact hclose h
      exact ⟨exec_bl_eq hx hsetbl hinitseq hinit, exec_isOpen_eq hx hclose hopen (absurd · hinit), hhandle,
        exec_inited_eq hx hinitseq hinit hclose⟩

/-- Settles O54: an error ends the operation, and a request answered with one leaves its fail event last. -/
theorem errorsWriteNoState : Obligations.ErrorsWriteNoState := by
  intro i s t e hx hrsp
  refine ⟨?_, exec_err_keeps_control hx hrsp, ?_⟩
  · obtain ⟨⟨hq, -⟩, -⟩ := exec_ran hx
    rcases exec_err_cases hx hrsp with ⟨-, rfl⟩ | ⟨_, _, _, _, -, -, -, hseq, -⟩
    · exact hq
    · exact hseq
  · rintro d rfl
    obtain ⟨pre, m, -, -, hm, -, htrace⟩ := exec_transport_err hx hrsp
    exact ⟨_, _, htrace.trans (List.append_assoc ..).symm, failEvent_of_isRequest hm⟩

/-! ## The lifecycle (60_exceptions.md R210, R211) -/

section

variable {s : State}

theorem lifecycle_eq_closed_iff : s.lifecycle = .closed ↔ s.isOpen = false := by
  unfold State.lifecycle
  cases s.isOpen <;> cases s.inited <;> simp

theorem lifecycle_eq_openUninitialised_iff :
    s.lifecycle = .openUninitialised ↔ s.isOpen = true ∧ s.inited = false := by
  unfold State.lifecycle
  cases s.isOpen <;> cases s.inited <;> simp

theorem lifecycle_eq_ready_iff : s.lifecycle = .ready ↔ s.isOpen = true ∧ s.inited = true := by
  unfold State.lifecycle
  cases s.isOpen <;> cases s.inited <;> simp

end

/-- The lifecycle state is a function of OPEN and INITED. -/
theorem lifecycle_congr {s t : State} (ho : t.isOpen = s.isOpen) (hi : t.inited = s.inited) :
    t.lifecycle = s.lifecycle := by
  rw [State.lifecycle, State.lifecycle, ho, hi]

/-- INITSEQ leaves OPEN as it was, also where a transmit fails. -/
theorem runSeq_initseqSteps_isOpen (c : Config) (r : Response) (s : State) :
    (runSeq (initseqSteps c) r s).isOpen = s.isOpen :=
  runSeq_ctl_eq Ctl.isOpen r s fun _ => initseqSteps_keeps_isOpen

/-- An INIT of a closed block that has ended: its open was granted and the handle is kept, whatever came after (R161), or
the open failed and nothing came after. -/
theorem exec_init_of_closed_ended {s t : State} (ho : s.isOpen = false) (hx : exec .init s = .next t)
    (hidle : t.seq = .idle) :
    (t.isOpen = true ∧ t.trace ≠ s.trace ++ [.openFail]) ∨
    (t.isOpen = false ∧ t.trace = s.trace ++ [.openFail] ∧ t.rsp ≠ s.rsp ++ [.ok]) := by
  rw [exec_init_of_closed ho hx] at hidle ⊢
  rcases runSeq_openSteps_cases (initseqSteps s.cfg) .ok s with ⟨h, rest, -, hrun⟩ | ⟨d, rest, -, hrun⟩ | ⟨-, hrun⟩ <;>
    rw [hrun] at hidle ⊢
  · obtain ⟨es, htrace⟩ := runSeq_trace_extends (initseqSteps s.cfg) .ok (s.granted h rest)
    exact .inl ⟨runSeq_initseqSteps_isOpen _ _ _, by rw [htrace]; simp [State.granted]⟩
  · exact .inr ⟨ho, rfl, by simp [State.denied, raise, finish]⟩
  · cases hidle

/-- An INIT that ends `Ok` leaves OPEN 1. -/
theorem exec_init_isOpen_of_ok {s t : State} (hx : exec .init s = .next t) (hidle : t.seq = .idle)
    (hrsp : t.rsp = s.rsp ++ [.ok]) : t.isOpen = true := by
  cases ho : s.isOpen
  · rcases exec_init_of_closed_ended ho hx hidle with ⟨ht, -⟩ | ⟨-, -, hne⟩
    · exact ht
    · exact absurd hrsp hne
  · rw [exec_isOpen_eq hx nofun nofun fun _ => ho, ho]

/-- INIT leaves INITED 1 exactly when it ends `Ok`, from every state of the lifecycle. -/
theorem exec_init_inited {s t : State} (hlife : s.inited = true → s.isOpen = true) (hx : exec .init s = .next t) :
    t.inited = true ↔ t.rsp = s.rsp ++ [.ok] := by
  obtain ⟨-, hopened, hclosed, -⟩ := initedMeansTheLastInitseqEndedOk .init s t hx
  cases hi : s.inited
  · exact hclosed rfl hi
  · exact hopened rfl (hlife hi)

/-- An INIT of an open block that fails leaves it open and not initialised, whether it was initialised before or not. -/
theorem exec_init_lifecycle_of_open_failed {s t : State} (ho : s.isOpen = true) (hx : exec .init s = .next t)
    (hrsp : t.rsp ≠ s.rsp ++ [.ok]) : t.lifecycle = .openUninitialised := by
  have hopen : t.isOpen = true := by rw [exec_isOpen_eq hx nofun nofun fun _ => ho, ho]
  have hinited := mt (exec_init_inited (fun _ => ho) hx).1 hrsp
  exact lifecycle_eq_openUninitialised_iff.2 ⟨hopen, Bool.eq_false_of_not_eq_true hinited⟩

/-- Settles O55: CLOSE clears OPEN, INIT is told by its open and its result, the other operations write neither bit. -/
theorem lifecycleTransitions : Obligations.LifecycleTransitions := by
  intro i s t hpub hlife hx hidle
  refine ⟨?_, fun hinit hclose => ?_, ?_, ?_, ?_, ?_⟩
  · rintro rfl
    exact lifecycle_eq_closed_iff.2 (exec_close_isOpen hx)
  · have hopenBus : i ≠ .openBus := by rintro rfl; cases hpub
    have hinitseq : i ≠ .initseq := by rintro rfl; cases hpub
    exact lifecycle_congr (exec_isOpen_eq hx hclose hopenBus (absurd · hinit)) (exec_inited_eq hx hinitseq hinit hclose)
  · rintro rfl hrsp
    exact lifecycle_eq_ready_iff.2 ⟨exec_init_isOpen_of_ok hx hidle hrsp, (exec_init_inited hlife hx).2 hrsp⟩
  · rintro rfl hrsp hs
    exact exec_init_lifecycle_of_open_failed (lifecycle_eq_openUninitialised_iff.1 hs).1 hx hrsp
  · rintro rfl hrsp hs
    exact exec_init_lifecycle_of_open_failed (lifecycle_eq_ready_iff.1 hs).1 hx hrsp
  · rintro rfl hrsp hs
    rcases exec_init_of_closed_ended (lifecycle_eq_closed_iff.1 hs) hx hidle with ⟨ho, htrace⟩ | ⟨ho, htrace, -⟩
    · have hinited := mt (exec_init_inited hlife hx).1 hrsp
      rw [if_neg htrace]
      exact lifecycle_eq_openUninitialised_iff.2 ⟨ho, Bool.eq_false_of_not_eq_true hinited⟩
    · rw [if_pos htrace]
      exact lifecycle_eq_closed_iff.2 ho

end Sys2Proof.Machine

namespace Sys2Proof.Machine

/-! ## Reset (70_reset_and_hazards.md R230, R231) -/

section
variable (c : Config)

@[simp] theorem State.resetWith_cfg : (State.resetWith c).cfg = c := rfl
@[simp] theorem State.resetWith_isOpen : (State.resetWith c).isOpen = false := rfl
@[simp] theorem State.resetWith_inited : (State.resetWith c).inited = false := rfl
@[simp] theorem State.resetWith_timer : (State.resetWith c).timer = 0 := rfl
@[simp] theorem State.resetWith_seq : (State.resetWith c).seq = .idle := rfl

end

/-- Settles O6: the elements are read off the reset state, and OPEN = 0 alone makes the lifecycle state CLOSED (R210). -/
theorem resetLeavesTheResetValues : Obligations.ResetLeavesTheResetValues := by
  intro c
  have hclosed : (State.resetWith c).lifecycle = .closed := lifecycle_eq_closed_iff.2 (State.resetWith_isOpen c)
  exact ⟨State.resetWith_cfg c, rfl, State.resetWith_isOpen c, State.resetWith_seq c, State.resetWith_inited c, rfl, rfl,
    hclosed⟩

/-- An idle block meets `seqOk` whatever its other elements hold. -/
theorem State.seqOk_of_idle {s : State} (h : s.seq = .idle) : s.seqOk = true := by
  simp [State.seqOk, h]

/-- Of the four parts of the invariant only the geometry depends on the configuration. -/
theorem inv_resetWith {c : Config} (hg : c.geometryOk) : Inv (State.resetWith c) where
  geometry := hg
  lifecycle := by simp
  timer := State.resetWith_timer c
  seq := State.seqOk_of_idle (State.resetWith_seq c)

theorem geometryOk_standard : Config.standard.geometryOk := by decide

/-- Settles O14: the standard reset state is the reset of the well-formed standard configuration. -/
theorem resetMeetsTheInvariant : Obligations.ResetMeetsTheInvariant :=
  ⟨fun _ hg => inv_resetWith hg, inv_resetWith geometryOk_standard⟩

end Sys2Proof.Machine
